-- ==== Sys2Proof/Word.lean ====
section
/-! DEFINITION. The word types of the engine: every value is an unsigned 8-bit vector (00_scope.md R5). -/

namespace Sys2Proof

/-- An unsigned 8-bit value: ACC, D[0], D[1], POLY, the operands and the result (R4, R5). -/
abbrev Byte := BitVec 8

/-- The index of one of the two locations of the operand buffer; no other index can be formed (R20). -/
abbrev ByteIndex := Fin 2

/-- A value of the step counter STEP: only the twenty legal values 0 to 19 can be formed (R13, R36; log entry 4). -/
abbrev StepNo := Fin 20

/-- `f` applied `n` times. -/
def times {α : Type} (f : α → α) : Nat → α → α
  | 0, x => x
  | n + 1, x => times f n (f x)

end Sys2Proof
end

