-- ==== Sys2Proof/Config.lean ====
section
/-! DEFINITION. What the source fixes for every engine (00_scope.md R4), and what the spec leaves open: the open
parameter UNROLL and the free values that a RESET leaves in D[0], D[1] and POLY. -/

namespace Sys2Proof.Config

/-- The value INIT writes to ACC (R4, R39). UNVERIFIED literal, taken as normative (92 D20; log entry 17). -/
def initAcc : Byte := 0xFF#8

/-- The mask of step 3 of the algorithm (R4, R43). -/
def outputMask : Byte := 0xFF#8

/-- The bit a ROUND tests, mask 0x80 (R4, R41). -/
def highBit : Nat := 7

/-- Rounds after each input byte (R4). -/
def roundsPerByte : Nat := 8

/-- Micro-operations that change ACC in one transaction: 2 XORB and 16 ROUND (R38, R77). -/
def microOpsPerRun : Nat := 18

/-- FREE VALUE: the byte that the n-th draw gives. RESET leaves D[0], D[1] and POLY unspecified (R18, R72; 93 U2; log
entry 3). No body a proof can see: nothing constrains it. There is one such stream for every engine and run (DESIGN CHOICE, log
entry 19). -/
opaque freeByte : Nat → Byte

/-- OPEN PARAMETER: UNROLL less one (R60; 92 D10; log entry 13). No body a proof can see. -/
opaque unrollLessOne : Nat

/-- UNROLL, the micro-operations an implementation performs in one clock cycle: an integer of at least 1 (R60). -/
def unroll : Nat := unrollLessOne + 1

end Sys2Proof.Config
end

