-- ==== Sys2Proof/Syntax.lean ====
section
/-! DEFINITION. The operations of the engine (00_scope.md R1, 30_encoding.md R37), one constructor per mnemonic of
spec/opcode_table.json, and the encoded words that select them. -/

namespace Sys2Proof

/-- The engine's operations. The sixteen ROUND rows of the table are one operation (R32): the constructor `round` carries
what tells the rows apart, the byte and the number of the round (log entry 12). -/
inductive Instr where
  /-- CRC8 d0, d1, p: the one external operation (R47). -/
  | crc8 (d0 d1 p : Byte)
  /-- RSP8: the response word (R33), delivered to a host that reads it. -/
  | rsp8 (crc : Byte)
  /-- IDLE: the state STEP = 0, no micro-operation (R32 row 0). -/
  | idle
  /-- XORB 0 (R40). -/
  | xorb0
  /-- ROUND number `k` after byte `byte` (R41). -/
  | round (byte : ByteIndex) (k : Fin 8)
  /-- XORB 1 (R40). -/
  | xorb1
  /-- OUT: the standing output of the state STEP = 19 (R43). -/
  | out
  /-- INIT (R39). -/
  | init
  /-- BYTE i (R46). -/
  | byte (i : ByteIndex)
  /-- RESET (R72). -/
  | reset
  /-- ACCEPT (R55). -/
  | accept
  /-- HOLD (R57). -/
  | hold
  /-- ADVANCE (R56). -/
  | advance
  /-- IGNORE (R58). -/
  | ignore
  deriving DecidableEq, Repr

/-- What the hardwired micro-program performs at a STEP value (R32). -/
inductive MicroOp where
  /-- Nothing: the row of IDLE. -/
  | idle
  /-- XORB i. -/
  | xorb (i : ByteIndex)
  /-- ROUND number k after byte b. -/
  | round (b : ByteIndex) (k : Fin 8)
  /-- OUT. -/
  | out
  deriving DecidableEq, Repr

/-- A micro-operation as an instruction. -/
def MicroOp.toInstr : MicroOp → Instr
  | .idle => .idle
  | .xorb 0 => .xorb0
  | .xorb 1 => .xorb1
  | .round b k => .round b k
  | .out => .out

/-- An encoded word in one of the four formats of 30_encoding.md. -/
inductive Code where
  /-- A request, the three operands in one word (R31). -/
  | req24 (w : BitVec 24)
  /-- A response (R33). -/
  | rsp8 (w : BitVec 8)
  /-- A value of the step counter (R32). -/
  | step5 (w : BitVec 5)
  /-- The control word rst, start, ready (R34). -/
  | ctl3 (w : BitVec 3)
  deriving DecidableEq, Repr

/-- Why a word is rejected. -/
inductive Reject where
  /-- A STEP5 word of 20 to 31 (R32, R36). -/
  | reservedStep (w : BitVec 5)
  deriving DecidableEq, Repr

/-- The three phases, names for ranges of STEP (R13). -/
inductive Phase where
  | idle
  | run
  | done
  deriving DecidableEq, Repr

end Sys2Proof
end

