-- ==== Sys2Proof/WellFormed.lean ====
section
/-! DEFINITION. Well-formedness. The operand types of `Instr` leave no operand value to check (every byte is legal, R36; an
index other than 0 or 1 cannot be formed, R20), so two checks remain: whether an instruction is issued by a word of its
own, and whether a list-typed `data` has the two bytes the contract asks for. -/

namespace Sys2Proof

/-- The instruction is issued by one word of its own. INIT has none, it is part of ACCEPT (R39); BYTE has none, it is the
name of nine consecutive STEP values (R46). Neither is invocable separately (log entry 11). -/
def Instr.wellFormed : Instr → Bool
  | .crc8 _ _ _ => true
  | .rsp8 _ => true
  | .idle => true
  | .xorb0 => true
  | .round _ _ => true
  | .xorb1 => true
  | .out => true
  | .init => false
  | .byte _ => false
  | .reset => true
  | .accept => true
  | .hold => true
  | .advance => true
  | .ignore => true

/-- A list-typed `data` meets the contract exactly when it has two elements (R62, R63). -/
def dataWellFormed (data : List Byte) : Bool := data.length == 2

end Sys2Proof
end

