-- ==== Sys2Proof/Decode.lean ====
section
/-! DEFINITION. The decoder of the four formats of 30_encoding.md, total and rejecting by name, and after it the encoder. -/

namespace Sys2Proof

/-- The byte group of a running STEP value: (s - 1) div 9 (R32). -/
def stepGroup (n : StepNo) : ByteIndex := Fin.ofNat 2 ((n.val - 1) / 9)

/-- The position of a running STEP value in its group: (s - 1) mod 9, where 0 is the XORB (R32). -/
def stepPosition (n : StepNo) : Nat := (n.val - 1) % 9

/-- The hardwired micro-program (R32). It is no state: nothing reads or writes it (R29). -/
def microProgram (n : StepNo) : MicroOp :=
  if n.val = 0 then .idle
  else if n.val = 19 then .out
  else if stepPosition n = 0 then .xorb (stepGroup n)
  else .round (stepGroup n) (Fin.ofNat 8 (stepPosition n - 1))

/-- Format REQ24 = poly, data0, data1 (R31): every word is a legal request (R36). -/
def decodeReq24 (w : BitVec 24) : Instr :=
  .crc8 (w.extractLsb' 8 8) (w.extractLsb' 0 8) (w.extractLsb' 16 8)

/-- Format RSP8 (R33): every byte is a response. -/
def decodeRsp8 (w : BitVec 8) : Instr := .rsp8 w

/-- Format STEP5 (R32): the values 20 to 31 are reserved (R36). -/
def decodeStep5 (w : BitVec 5) : Except Reject Instr :=
  if h : w.toNat < 20 then .ok (microProgram ⟨w.toNat, h⟩).toInstr else .error (.reservedStep w)

/-- Format CTL3 = rst, start, ready (R34): five cases over the eight words. -/
def decodeCtl3 (w : BitVec 3) : Instr :=
  match w.getLsbD 2, w.getLsbD 1, w.getLsbD 0 with
  | true, _, _ => .reset
  | false, true, true => .accept
  | false, false, true => .hold
  | false, false, false => .advance
  | false, true, false => .ignore

/-- The decoder: total on the words of the four formats. -/
def decode : Code → Except Reject Instr
  | .req24 w => .ok (decodeReq24 w)
  | .rsp8 w => .ok (decodeRsp8 w)
  | .step5 w => decodeStep5 w
  | .ctl3 w => .ok (decodeCtl3 w)

/-- A row of words decoded one after another; the first reserved word rejects the row. -/
def decodeAll : List Code → Except Reject (List Instr)
  | [] => .ok []
  | c :: cs =>
    match decode c, decodeAll cs with
    | .ok i, .ok is => .ok (i :: is)
    | .error r, _ => .error r
    | .ok _, .error r => .error r

/-- The word of the opcode table whose bits are `w`, read in the format its width names. A byte can hold a STEP5 word, a
CTL3 word and a response alike, and nothing in it says which: below 32 it is read as the STEP5 word (20 to 31 reserved),
above as the response, the one format with that many bits. DESIGN CHOICE (log entry 9). -/
def tableCode (nbits w : Nat) : Option Code :=
  match nbits with
  | 24 => if w < 2 ^ 24 then some (.req24 (BitVec.ofNat 24 w)) else none
  | 8 =>
    if w < 32 then some (.step5 (BitVec.ofNat 5 w))
    else if w < 256 then some (.rsp8 (BitVec.ofNat 8 w)) else none
  | 5 => if w < 32 then some (.step5 (BitVec.ofNat 5 w)) else none
  | 3 => if w < 8 then some (.ctl3 (BitVec.ofNat 3 w)) else none
  | _ => none

/-- The instruction the decoder reads from an opcode-table word; none where it rejects the word. -/
def decodeTableWord (nbits w : Nat) : Option Instr :=
  match tableCode nbits w with
  | some c =>
    match decode c with
    | .ok i => some i
    | .error _ => none
  | none => none

/-- The word of a STEP value. -/
def step5Of (n : Nat) : Code := .step5 (BitVec.ofNat 5 n)

/-- The first STEP value of the group of byte `i`: 1 or 10 (R46). -/
def groupStart (i : ByteIndex) : Nat := 9 * i.val + 1

/-- The encoder: the words that issue an instruction. BYTE has the nine STEP values of its group, INIT the control word of
the ACCEPT it is part of; every other instruction has one word of its own. RESET is encoded with start = ready = 0. -/
def encode : Instr → List Code
  | .crc8 d0 d1 p => [.req24 (p ++ d0 ++ d1)]
  | .rsp8 c => [.rsp8 c]
  | .idle => [step5Of 0]
  | .xorb0 => [step5Of 1]
  | .round b k => [step5Of (groupStart b + 1 + k.val)]
  | .xorb1 => [step5Of 10]
  | .out => [step5Of 19]
  | .init => [.ctl3 0b011#3]
  | .byte i => (List.range 9).map fun k => step5Of (groupStart i + k)
  | .reset => [.ctl3 0b100#3]
  | .accept => [.ctl3 0b011#3]
  | .hold => [.ctl3 0b001#3]
  | .advance => [.ctl3 0b000#3]
  | .ignore => [.ctl3 0b010#3]

/-- The eight rounds after byte `i`, in order. -/
def roundsOf (i : ByteIndex) : List Instr := (List.finRange 8).map fun k => .round i k

/-- What the words of an instruction issue: the instruction itself, but for the two that have no word of their own. BYTE i
expands to XORB i and eight ROUNDs (R38); INIT is performed by the ACCEPT whose word it shares (R39). -/
def Instr.issued : Instr → List Instr
  | .crc8 d0 d1 p => [.crc8 d0 d1 p]
  | .rsp8 c => [.rsp8 c]
  | .idle => [.idle]
  | .xorb0 => [.xorb0]
  | .round b k => [.round b k]
  | .xorb1 => [.xorb1]
  | .out => [.out]
  | .init => [.accept]
  | .byte i => (MicroOp.xorb i).toInstr :: roundsOf i
  | .reset => [.reset]
  | .accept => [.accept]
  | .hold => [.hold]
  | .advance => [.advance]
  | .ignore => [.ignore]

end Sys2Proof
end

