-- ==== Sys2Proof/Machine/State.lean ====
section
/-! DEFINITION. The state of the machine: the five registers of 10_state.md, and beside them the model's own three fields for
what the environment drives and for the free values drawn. -/

namespace Sys2Proof.Machine

/-- The values on the five input ports in one step (R15). -/
structure Ports where
  /-- Reset request. -/
  rst : Bool
  /-- Request for a transaction with the operands now on the ports. -/
  start : Bool
  /-- First byte of the input buffer. -/
  data0 : Byte
  /-- Second byte of the input buffer. -/
  data1 : Byte
  /-- The polynomial operand. -/
  poly : Byte
  deriving DecidableEq, Repr

/-- The host does nothing: rst = 0, start = 0. The other three values are then not sampled by any transition. -/
def Ports.quiet : Ports := { rst := false, start := false, data0 := 0, data1 := 0, poly := 0 }

/-- The machine's state. The fields `ports`, `agenda` and `draws` are the MODEL's own, not the spec's (log entries 1 and 3):
the engine's state is ACC, D[0], D[1], POLY and STEP (R8 to R13). -/
structure State where
  /-- ACC, the accumulator (R8). -/
  acc : Byte
  /-- D[0], the first byte of the operand buffer (R9). -/
  d0 : Byte
  /-- D[1], the second byte of the operand buffer (R9). -/
  d1 : Byte
  /-- POLY, the polynomial operand (R10). -/
  poly : Byte
  /-- STEP, the step counter, this block's program counter (R13). -/
  step : StepNo
  /-- The input values of the step about to happen. -/
  ports : Ports
  /-- The input values of the steps after it, one entry a step; when it is empty the host drives nothing. -/
  agenda : List Ports
  /-- How many free values RESET has drawn. -/
  draws : Nat
  deriving DecidableEq, Repr

/-- The reset state (R18, R72): STEP = 0, ACC = 0xFF. D[0], D[1] and POLY are unspecified there; the model names zero (DESIGN
CHOICE, log entry 2). The host drives nothing (log entry 1). -/
def State.reset : State where
  acc := Config.initAcc
  d0 := 0
  d1 := 0
  poly := 0
  step := 0
  ports := Ports.quiet
  agenda := []
  draws := 0

/-- Why the machine stops with a fault. -/
inductive Fault where
  /-- Raised by the list-typed boundary in front of the engine, and by nothing else, when `data` has a length other than 2
  (R62, R63); it carries that length. Safe: the spec itself rejects such a call before anything is computed. No step of the
  engine and no instruction raises it (R64, R68). -/
  | invalidInputLength (length : Nat)
  deriving DecidableEq, Repr

/-- Why an instruction has no meaning. -/
inductive Refusal where
  /-- Raised by an arm of `exec` that has no meaning yet, by mnemonic; no arm does. Safe: nothing can be proved of such an
  instruction. -/
  | notModelled (mnemonic : String)
  deriving DecidableEq, Repr

end Sys2Proof.Machine
end

