-- ==== Sys2Proof/Machine/Arith.lean ====
section
/-! DEFINITION. The function layer: the arithmetic of 40_microops.md and 41_crc8_operation.md as pure functions. All values
are unsigned bytes; the only operations are XOR, shift left by one and truncation (R44). -/

namespace Sys2Proof.Machine

/-- `a << 1` in unbounded integers: nine bits wide for a byte (00_scope.md section 5). -/
def shiftLeftWide (a : Byte) : BitVec 9 := a.setWidth 9 <<< 1

/-- trunc8: keep bits 7 to 0, discard any bit beyond bit 7 (00_scope.md section 5). -/
def trunc8 {w : Nat} (v : BitVec w) : Byte := v.setWidth 8

/-- ROUND(a, p) = trunc8(a << 1) XOR (p if a[7] = 1 else 0x00) (R41): the test comes before the shift, the shift before the
XOR; the bit that leaves bit 7 is discarded and is no error (R65). -/
def roundFn (a p : Byte) : Byte :=
  trunc8 (shiftLeftWide a) ^^^ (if a.getLsbD Config.highBit then p else 0)

/-- ROUND applied n times with the same polynomial (R46). -/
def roundsFn (n : Nat) (a p : Byte) : Byte := times (fun x => roundFn x p) n a

/-- BYTE(a, b, p) = ROUND^8(a XOR b, p) (R46). -/
def byteFn (a b p : Byte) : Byte := roundsFn Config.roundsPerByte (a ^^^ b) p

/-- CRC8(d0, d1, p) = BYTE(BYTE(0xFF, d0, p), d1, p) AND 0xFF (R47). -/
def crc8Fn (d0 d1 p : Byte) : Byte := byteFn (byteFn Config.initAcc d0 p) d1 p &&& Config.outputMask

/-- A round on an accumulator held in a wider type, without the truncation (R45): the high bit is still tested with the mask
0x80. This is not ROUND; R45 says its low 8 bits are. -/
def wideRound (r : Nat) (p : Byte) : Nat := if r.testBit Config.highBit then (2 * r) ^^^ p.toNat else 2 * r

/-- The algorithm on such an accumulator, masked only at the end (R45). -/
def wideCrc8 (d0 d1 p : Byte) : Nat :=
  let rounds := times (fun r => wideRound r p) Config.roundsPerByte
  rounds (rounds (Config.initAcc.toNat ^^^ d0.toNat) ^^^ d1.toNat) &&& Config.outputMask.toNat

end Sys2Proof.Machine
end

