-- ==== Sys2Proof/Machine/Flags.lean ====
section
/-! DEFINITION. The engine stores no flag (R14). Here are the one condition of the algorithm, computed and stored nowhere, and
the output ports, pure functions of STEP and ACC recomputed in every state (R16). -/

namespace Sys2Proof.Machine

/-- The wire t = ACC[7] that a ROUND tests (R14, R41). -/
def State.highBit (s : State) : Bool := s.acc.getLsbD Config.highBit

/-- IDLE is STEP = 0, RUN is STEP in 1 to 18, DONE is STEP = 19 (R13). -/
def phaseOf (n : StepNo) : Phase := if n.val = 0 then .idle else if n.val ≤ 18 then .run else .done

/-- The phase the engine is in. -/
def State.phase (s : State) : Phase := phaseOf s.step

/-- The output `ready`: the engine accepts a request in this step (R16). -/
def State.ready (s : State) : Bool := s.step.val == 0 || s.step.val == 19

/-- The output `busy`: a transaction is in progress (R16). -/
def State.busy (s : State) : Bool := 1 ≤ s.step.val && s.step.val ≤ 18

/-- The output `done`: a result is available on `crc` (R16). -/
def State.done (s : State) : Bool := s.step.val == 19

/-- The output `crc`: ACC AND 0xFF in DONE, 0x00 in every other state (R16, R17, R43). -/
def State.crc (s : State) : Byte := if s.done then s.acc &&& Config.outputMask else 0x00#8

/-- The four output ports together (R15). -/
structure Outputs where
  ready : Bool
  busy : Bool
  done : Bool
  crc : Byte
  deriving DecidableEq, Repr

/-- The output ports in a state (R16). -/
def State.outputs (s : State) : Outputs := { ready := s.ready, busy := s.busy, done := s.done, crc := s.crc }

/-- The response in format RSP8: the port `crc`, qualified by `done` = 1 (R33); no result stands before that (R17). -/
def State.response (s : State) : Option (BitVec 8) := if s.done then some s.crc else none

end Sys2Proof.Machine
end

