-- ==== Sys2Proof/Machine/Operands.lean ====
section
/-! DEFINITION. Where operands come from: the operand buffer by index (R20, R22), the request on the ports or in one word
(R31, R35), the control word (R34) and the STEP word (R32). -/

namespace Sys2Proof.Machine

/-- MemRead(i, 1) = D[i], the one read that exists (R22); it changes nothing (R25). -/
def State.memRead (s : State) (i : ByteIndex) : Byte :=
  match i with
  | 0 => s.d0
  | 1 => s.d1

/-- The ports on which a host asks for CRC8 d0, d1, p (R15, R78). -/
def Ports.request (d0 d1 p : Byte) : Ports := { rst := false, start := true, data0 := d0, data1 := d1, poly := p }

/-- The operands on the ports as one REQ24 word (R31). -/
def Ports.req24 (i : Ports) : BitVec 24 := i.poly ++ i.data0 ++ i.data1

/-- The control word CTL3 = rst, start, ready (R34). -/
def State.controlWord (s : State) : BitVec 3 :=
  BitVec.ofBool s.ports.rst ++ BitVec.ofBool s.ports.start ++ BitVec.ofBool s.ready

/-- The STEP word (R32). -/
def State.stepWord (s : State) : BitVec 5 := BitVec.ofNat 5 s.step.val

end Sys2Proof.Machine
end

