-- ==== Sys2Proof/Machine/Ops.lean ====
section
/-! DEFINITION. The named operations over the registers, from which every meaning is made. The engine has no exception whose
entry could be taken and no return from one (R67, R69): no operation here is one. -/

namespace Sys2Proof.Machine

/-- ACC <- v. -/
def State.setAcc (v : Byte) (s : State) : State := { s with acc := v }

/-- POLY <- v. Only ACCEPT does so (R10). -/
def State.setPoly (v : Byte) (s : State) : State := { s with poly := v }

/-- STEP <- n. -/
def State.setStep (n : StepNo) (s : State) : State := { s with step := n }

/-- MemWrite(i, 1, v): D[i] <- v. Only ACCEPT does so (R20, R55). -/
def State.memWrite (i : ByteIndex) (v : Byte) (s : State) : State :=
  match i with
  | 0 => { s with d0 := v }
  | 1 => { s with d1 := v }

/-- D[0], D[1] and POLY become unspecified (R72): each takes a free value that nothing constrains (log entry 3).
DESIGN CHOICE, unsafe (log entry 19): the values come from one stream indexed by this state's own `draws`, so two engines, or
two runs, with the same count draw the same bytes; the spec relates the values of no two instances (R18, R28). -/
def State.drawOperands (s : State) : State :=
  { s with
    d0 := Config.freeByte s.draws
    d1 := Config.freeByte (s.draws + 1)
    poly := Config.freeByte (s.draws + 2)
    draws := s.draws + 3 }

/-- The micro-operation INIT: ACC <- 0xFF (R39). -/
def State.doInit (s : State) : State := s.setAcc Config.initAcc

/-- The micro-operation XORB i: ACC <- ACC XOR D[i] (R40). -/
def State.doXorb (i : ByteIndex) (s : State) : State := s.setAcc (s.acc ^^^ s.memRead i)

/-- The micro-operation ROUND: ACC <- ROUND(ACC, POLY) (R41). -/
def State.doRound (s : State) : State := s.setAcc (roundFn s.acc s.poly)

/-- The composite BYTE i: XORB i, then eight ROUNDs, never fewer (R46). -/
def State.doByte (i : ByteIndex) (s : State) : State := times State.doRound Config.roundsPerByte (s.doXorb i)

/-- The register transfer of a micro-operation (R32). IDLE performs none and OUT writes no register (R43). -/
def State.doMicroOp (m : MicroOp) (s : State) : State :=
  match m with
  | .idle => s
  | .xorb i => s.doXorb i
  | .round _ _ => s.doRound
  | .out => s

/-- The STEP value after an ADVANCE: one more in RUN (R56). At 0 and 19 no ADVANCE happens; there STEP stays, as the column
'Next STEP' of R32 has it (log entry 6). -/
def nextStep (n : StepNo) : StepNo := if h : 1 ≤ n.val ∧ n.val ≤ 18 then ⟨n.val + 1, by omega⟩ else n

/-- The transition ADVANCE: the micro-operation STEP selects, then STEP <- STEP + 1 (R56). -/
def State.doAdvance (s : State) : State := (s.doMicroOp (microProgram s.step)).setStep (nextStep s.step)

/-- The transition ACCEPT with the operands d0, d1, p, all five writes in the one step (R55). -/
def State.doAccept (d0 d1 p : Byte) (s : State) : State :=
  ((((s.memWrite 0 d0).memWrite 1 d1).setPoly p).doInit).setStep 1

/-- The event RESET: STEP <- 0, ACC <- 0xFF, the rest unspecified (R72). -/
def State.doReset (s : State) : State := (s.drawOperands.doInit).setStep 0

/-- A whole transaction: ACCEPT, then the eighteen ADVANCEs that end in the state DONE (R38, R59). -/
def State.doTransaction (d0 d1 p : Byte) (s : State) : State :=
  times State.doAdvance Config.microOpsPerRun (s.doAccept d0 d1 p)

/-- The host's move between two steps: it drives the next entry of its agenda, or nothing (R78; log entry 1). -/
def State.hostMove (s : State) : State := { s with ports := s.agenda.headD Ports.quiet, agenda := s.agenda.tail }

/-- The transition the sequencer fetches in this step: what the control word selects (R34). -/
def State.transition (s : State) : Instr := decodeCtl3 s.controlWord

/-- The machine placed so that the next step runs what a word encodes (log entry 10). A request stands on the ports of a
ready engine. A STEP word is the position of the sequencer, with the host quiet. A control word is `rst` and `start` on the
ports, and a state with that `ready`. A response is that result standing in DONE. A reserved STEP word cannot be placed. -/
def State.place (s : State) : Code → State
  | .req24 w =>
    { s with
      ports := Ports.request (w.extractLsb' 8 8) (w.extractLsb' 0 8) (w.extractLsb' 16 8)
      step := if s.ready then s.step else 0 }
  | .rsp8 w => { s with ports := Ports.quiet, step := 19, acc := w }
  | .step5 w => if h : w.toNat < 20 then { s with ports := Ports.quiet, step := ⟨w.toNat, h⟩ } else s
  | .ctl3 w =>
    { s with
      ports := { s.ports with rst := w.getLsbD 2, start := w.getLsbD 1 }
      step := if w.getLsbD 0 == s.ready then s.step else if w.getLsbD 0 then 0 else 1 }

/-- One outcome after another: the second runs in the state the first answers. -/
def andThen (o : Host.Outcome State Fault Refusal) (f : State → Host.Outcome State Fault Refusal) :
    Host.Outcome State Fault Refusal :=
  match o with
  | .next s => f s
  | .fault r => .fault r
  | .refused r => .refused r

end Sys2Proof.Machine
end

