-- ==== Sys2Proof/Machine/Composites.lean ====
section
/-! DEFINITION. The meanings of the composites BYTE and CRC8 (41_crc8_operation.md) and of the response RSP8 (R33). -/

namespace Sys2Proof.Machine

/-- BYTE i (R46). -/
def execByte (i : ByteIndex) (s : State) : Host.Outcome State Fault Refusal := .next (s.doByte i)

/-- CRC8 d0, d1, p (R47): presented to a ready engine, the whole transaction, from ACCEPT to DONE, with no reset in between
(R38, R59). Presented to a busy engine the request is lost and the step is an ordinary ADVANCE (R58). Log entry 7. -/
def execCrc8 (d0 d1 p : Byte) (s : State) : Host.Outcome State Fault Refusal :=
  if s.ready then .next (s.doTransaction d0 d1 p) else .next s.doAdvance

/-- RSP8: the response is delivered. Reading a port has no effect on the engine (R57, R78); what is delivered is
`State.response` (R33). Log entry 8. -/
def execRsp8 (_crc : Byte) (s : State) : Host.Outcome State Fault Refusal := .next s

end Sys2Proof.Machine
end

