-- ==== Sys2Proof/Machine/MicroOps.lean ====
section
/-! DEFINITION. The meanings of the micro-operations INIT, XORB, ROUND, OUT (40_microops.md) and of the empty row IDLE of the
micro-program. A micro-operation writes ACC at most; the increment of STEP is ADVANCE's (log entry 5). -/

namespace Sys2Proof.Machine

/-- INIT (R39). -/
def execInit (s : State) : Host.Outcome State Fault Refusal := .next s.doInit

/-- XORB 0 (R40). -/
def execXorb0 (s : State) : Host.Outcome State Fault Refusal := .next (s.doXorb 0)

/-- XORB 1 (R40). -/
def execXorb1 (s : State) : Host.Outcome State Fault Refusal := .next (s.doXorb 1)

/-- ROUND (R41). The number of the round changes nothing in what a round computes; it only counts (R32). -/
def execRound (_byte : ByteIndex) (_k : Fin 8) (s : State) : Host.Outcome State Fault Refusal := .next s.doRound

/-- OUT writes no register (R43): it is the output function `State.crc` and `State.done` of the state DONE. -/
def execOut (s : State) : Host.Outcome State Fault Refusal := .next s

/-- IDLE performs no micro-operation (R32 row 0); waiting changes nothing (R57). -/
def execIdle (s : State) : Host.Outcome State Fault Refusal := .next s

end Sys2Proof.Machine
end

