-- ==== Sys2Proof/Machine/Sequencer.lean ====
section
/-! DEFINITION. The meanings of the sequencer's transitions ACCEPT, ADVANCE, HOLD, IGNORE (42_sequencer.md) and of the event
RESET (70_reset_and_hazards.md). None of them waits for anything, and none can fail (R56, R68). -/

namespace Sys2Proof.Machine

/-- ACCEPT (R55): the operands are sampled from the ports in this step only. -/
def execAccept (s : State) : Host.Outcome State Fault Refusal :=
  .next (s.doAccept s.ports.data0 s.ports.data1 s.ports.poly)

/-- ADVANCE (R56). -/
def execAdvance (s : State) : Host.Outcome State Fault Refusal := .next s.doAdvance

/-- HOLD changes nothing (R57). -/
def execHold (s : State) : Host.Outcome State Fault Refusal := .next s

/-- IGNORE (R58): the request is dropped, nothing records it, and the step is an ordinary ADVANCE. -/
def execIgnore (s : State) : Host.Outcome State Fault Refusal := .next s.doAdvance

/-- RESET (R72), from any state and whatever the other inputs. -/
def execReset (s : State) : Host.Outcome State Fault Refusal := .next s.doReset

end Sys2Proof.Machine
end

