-- ==== Sys2Proof/Machine/Dispatch.lean ====
section
/-! DEFINITION. The dispatch: one arm per operation, each one call of its meaning. -/

namespace Sys2Proof.Machine

/-- The meaning of an operation in a state. -/
def exec (i : Instr) (s : State) : Host.Outcome State Fault Refusal :=
  match i with
  | .crc8 d0 d1 p => Sys2Proof.Machine.execCrc8 d0 d1 p s
  | .rsp8 crc => Sys2Proof.Machine.execRsp8 crc s
  | .idle => Sys2Proof.Machine.execIdle s
  | .xorb0 => Sys2Proof.Machine.execXorb0 s
  | .round byte k => Sys2Proof.Machine.execRound byte k s
  | .xorb1 => Sys2Proof.Machine.execXorb1 s
  | .out => Sys2Proof.Machine.execOut s
  | .init => Sys2Proof.Machine.execInit s
  | .byte index => Sys2Proof.Machine.execByte index s
  | .reset => Sys2Proof.Machine.execReset s
  | .accept => Sys2Proof.Machine.execAccept s
  | .hold => Sys2Proof.Machine.execHold s
  | .advance => Sys2Proof.Machine.execAdvance s
  | .ignore => Sys2Proof.Machine.execIgnore s

end Sys2Proof.Machine
end

