-- ==== Sys2Proof/Machine/Step.lean ====
section
/-! DEFINITION. One step of the machine (42_sequencer.md section 1): the transition the control word selects, then the host's
next move. And the placing of an opcode-table word where a step fetches it. -/

namespace Sys2Proof.Machine

/-- One step: total, deterministic, and without a fault, a stuck state or a refusal (R68). -/
def step (s : State) : Host.Outcome State Fault Refusal :=
  andThen (exec s.transition s) fun t => .next t.hostMove

/-- The state with the instruction of an opcode-table word placed where the next step fetches it (log entries 9 and 10); a
word that no format holds leaves the state as it is. -/
def State.withFetchWord (s : State) (nbits w : Nat) : State :=
  match tableCode nbits w with
  | some c => s.place c
  | none => s

end Sys2Proof.Machine
end

