-- ==== Sys2Proof/Machine/Bank.lean ====
section
/-! DEFINITION. Several engines side by side (20_memory.md R28): each has its own registers, and they share nothing.
That two engines with the same `draws` draw the same bytes at a RESET is the model's choice and not the spec's (log entry 19). -/

namespace Sys2Proof.Machine

/-- Engine `n` of the bank takes a step and no other engine does; none where there is no such engine or it has no next
state. -/
def stepEngine (n : Nat) (bank : List State) : Option (List State) :=
  match bank[n]? with
  | some s =>
    match step s with
    | .next t => some (bank.set n t)
    | .fault _ => none
    | .refused _ => none
  | none => none

end Sys2Proof.Machine
end

