-- ==== Sys2Proof/Machine/Boundary.lean ====
section
/-! DEFINITION. The list-typed boundary in front of the engine (60_exceptions.md R63): the only place where the one error of
the taxonomy, InvalidInputLength, can arise (R62, R64). How it is delivered is the boundary's choice (R66; 93 U7; log entry
14): an Except value for the function, a fault outcome for the machine. -/

namespace Sys2Proof.Machine

/-- crc8_checked(data, p): the length is checked before anything is computed; no padding, no truncation, no prefix (R63). -/
def crc8Checked (data : List Byte) (p : Byte) : Except Fault Byte :=
  match data with
  | [b0, b1] => .ok (crc8Fn b0 b1 p)
  | _ => .error (.invalidInputLength data.length)

/-- The same boundary in front of the machine: the call runs CRC8 with the two bytes, or is rejected before the engine sees
any request. DESIGN CHOICE, unsafe (log entry 20): the boundary does not wait. A two-byte call while the engine is busy is the
lost request of R58, and its next state holds neither this call's byte nor an error; R63 and R66 say nothing of it. -/
def callChecked (data : List Byte) (p : Byte) (s : State) : Host.Outcome State Fault Refusal :=
  match data with
  | [b0, b1] => exec (.crc8 b0 b1 p) s
  | _ => .fault (.invalidInputLength data.length)

end Sys2Proof.Machine
end

