-- ==== Sys2Proof/Machine/Clock.lean ====
section
/-! DEFINITION. An implementation with a clock (42_sequencer.md R60): one clock cycle samples the ports once and performs one
RESET, one ACCEPT, one HOLD, or up to UNROLL consecutive ADVANCEs. No rule of the step machine depends on it. -/

namespace Sys2Proof.Machine

/-- Up to `n` consecutive ADVANCEs: a cycle stops early where the transaction is done (log entry 13). -/
def State.advances : Nat → State → State
  | 0, s => s
  | n + 1, s => if s.busy then State.advances n s.doAdvance else s

/-- One clock cycle of an implementation that performs `u` micro-operations in a cycle. -/
def State.clockCycle (u : Nat) (s : State) : State :=
  let t :=
    if s.ports.rst then s.doReset
    else if s.ports.start && s.ready then s.doAccept s.ports.data0 s.ports.data1 s.ports.poly
    else s.advances u
  t.hostMove

/-- One clock cycle of this implementation, whose UNROLL is the open parameter (R60). -/
def State.cycle (s : State) : State := s.clockCycle Config.unroll

end Sys2Proof.Machine
end

