-- ==== Sys2Proof/Machine/Run.lean ====
section
/-! DEFINITION. Runs: several instructions one after another, and several steps of the machine (42_sequencer.md R61). -/

namespace Sys2Proof.Machine

/-- The instructions of a list one after another, stopping at the first fault or refusal. -/
def execAll : List Instr → State → Host.Outcome State Fault Refusal
  | [], s => .next s
  | i :: is, s => andThen (exec i s) (execAll is)

/-- `n` steps of the machine. -/
def run (n : Nat) (s : State) : Host.Outcome State Fault Refusal := Host.Core.run Sys2Proof.core n s

end Sys2Proof.Machine
end

