-- ==== Sys2Proof/Safety.lean ====
section
/-! DEFINITION. What counts as a safe state and a safe stretch of a run, in the terms the statements use. -/

namespace Sys2Proof.Machine

/-- The accumulator after the first `k` micro-operations of a transaction with operands d0, d1, p (R59 item 3): INIT, then
XORB 0 and its eight rounds, then XORB 1 and its eight rounds. -/
def accAfter (k : Nat) (d0 d1 p : Byte) : Byte :=
  if k = 0 then 0xFF#8
  else if k ≤ 9 then roundsFn (k - 1) (0xFF#8 ^^^ d0) p
  else roundsFn (k - 10) (byteFn 0xFF#8 d0 p ^^^ d1) p

/-- A state a correct engine can be in: in IDLE the accumulator holds its reset value (R18), and in every other state it
holds what the algorithm has, for the operands latched in D[0], D[1] and POLY, after the STEP - 1 micro-operations performed
so far (R59 item 3). -/
abbrev State.Coherent (s : State) : Prop :=
  (s.step = 0 → s.acc = 0xFF#8) ∧ (s.step ≠ 0 → s.acc = accAfter (s.step.val - 1) s.d0 s.d1 s.poly)

/-- The host asserts no reset now nor in the next `n` steps (R59: the one condition of a transaction). -/
abbrev State.noReset (n : Nat) (s : State) : Prop := s.ports.rst = false ∧ ∀ q ∈ s.agenda.take n, q.rst = false

/-- The host does nothing now nor in the next `n` steps: no reset and no request. -/
abbrev State.hostQuiet (n : Nat) (s : State) : Prop :=
  (s.ports.rst = false ∧ s.ports.start = false) ∧ ∀ q ∈ s.agenda.take n, q.rst = false ∧ q.start = false

/-- The host presents a request to a ready engine in the step about to happen (R78). -/
abbrev State.requesting (s : State) : Prop := s.ready = true ∧ s.ports.rst = false ∧ s.ports.start = true

/-- Two states that no host can tell apart: the same host, the same STEP, and outside IDLE the same ACC, D[0], D[1] and POLY.
In IDLE those four may differ, as they may after a reset (R18), and the free values drawn may differ everywhere. -/
abbrev State.Indistinguishable (s t : State) : Prop :=
  t.ports = s.ports ∧ t.agenda = s.agenda ∧ t.step = s.step ∧
    (s.step ≠ 0 → t.acc = s.acc ∧ t.d0 = s.d0 ∧ t.d1 = s.d1 ∧ t.poly = s.poly)

end Sys2Proof.Machine
end

