-- ==== Sys2Proof/Certificates/Slice0/Obligations.lean ====
section
/-! DEFINITION. The statements for the provers. Each names the rule of spec/ it formalises. Nothing is proved here. -/

open Sys2Proof Sys2Proof.Machine

/-! ## The micro-operations (40_microops.md): result, frame and completion -/

/-- R39: INIT writes 0xFF to ACC, reads nothing and writes nothing else; ACCEPT performs it; and a zero initial value would be
another function. -/
def Obligations.InitSetsAccumulator : Prop :=
  (∀ s : State, exec .init s = .next { s with acc := 0xFF#8 }) ∧
  (∀ s : State, ∃ t, exec .accept s = .next t ∧ t.acc = 0xFF#8) ∧
  crc8Fn 0x00#8 0x00#8 0x31#8 = 0x81#8 ∧ byteFn (byteFn 0x00#8 0x00#8 0x31#8) 0x00#8 0x31#8 = 0x00#8

/-- R40: XORB i exclusive-ors D[i] into ACC and writes nothing else; i = 0 at STEP = 1, i = 1 at STEP = 10. -/
def Obligations.XorbAbsorbsByte : Prop :=
  (∀ s : State, exec .xorb0 s = .next { s with acc := s.acc ^^^ s.d0 }) ∧
  (∀ s : State, exec .xorb1 s = .next { s with acc := s.acc ^^^ s.d1 }) ∧
  decode (.step5 0b00001#5) = .ok .xorb0 ∧ decode (.step5 0b01010#5) = .ok .xorb1

/-- R41: ROUND doubles ACC modulo 256 and exclusive-ors POLY in when bit 7 of the old ACC was 1; it writes nothing else; its
sixteen STEP values are 2 to 9 and 11 to 18. -/
def Obligations.RoundShiftsAndReduces : Prop :=
  (∀ (b : ByteIndex) (k : Fin 8) (s : State), ∃ r : Byte,
    exec (.round b k) s = .next { s with acc := r } ∧
    r.toNat = ((2 * s.acc.toNat) % 256) ^^^ (if s.acc.getLsbD 7 then s.poly.toNat else 0)) ∧
  (∀ (b : ByteIndex) (k : Fin 8), decode (.step5 (BitVec.ofNat 5 (9 * b.val + 2 + k.val))) = .ok (.round b k))

/-- R42: the same round bit by bit; linear in the accumulator for a fixed polynomial, not linear in both together. -/
def Obligations.RoundIsBitParallel : Prop :=
  (∀ (b : ByteIndex) (k : Fin 8) (s : State), ∃ t, exec (.round b k) s = .next t ∧
    t.acc.getLsbD 0 = (s.acc.getLsbD 7 && s.poly.getLsbD 0) ∧
    ∀ i : Fin 7, t.acc.getLsbD (i.val + 1) =
      (s.acc.getLsbD i.val ^^ (s.acc.getLsbD 7 && s.poly.getLsbD (i.val + 1)))) ∧
  (∀ a a' p : Byte, roundFn (a ^^^ a') p = roundFn a p ^^^ roundFn a' p) ∧
  (∀ p : Byte, roundFn 0 p = 0) ∧
  (∃ a a' p p' : Byte, roundFn (a ^^^ a') (p ^^^ p') ≠ roundFn a p ^^^ roundFn a' p')

/-- R43: OUT writes no register; in its state, STEP = 19, the port crc drives ACC AND 0xFF, which is ACC, and done is 1. -/
def Obligations.OutDrivesResult : Prop :=
  (∀ s : State, exec .out s = .next s) ∧
  (∀ s : State, s.step.val = 19 → s.crc = s.acc &&& 0xFF#8 ∧ s.crc = s.acc ∧ s.done = true) ∧
  decode (.step5 0b10011#5) = .ok .out

/-- R32 row 0 and R57: the row IDLE performs no micro-operation. -/
def Obligations.IdlePerformsNothing : Prop :=
  ∀ s : State, exec .idle s = .next s

/-- R33, R78: reading the response has no effect on the engine (the meaning of the row RSP8 is the model's reading, log entry
8); the response is the byte on crc, and there is one exactly in DONE. -/
def Obligations.ResponseIsQualifiedByDone : Prop :=
  (∀ (c : Byte) (s : State), exec (.rsp8 c) s = .next s) ∧
  (∀ s : State, s.response = if s.step.val = 19 then some s.acc else none)

/-! ## The composites (41_crc8_operation.md) -/

/-- R46: BYTE i is one XORB and exactly eight ROUNDs, whatever the data; it writes ACC only. -/
def Obligations.ByteProcessesOneByte : Prop :=
  (∀ (i : ByteIndex) (s : State), exec (.byte i) s = .next { s with acc := roundsFn 8 (s.acc ^^^ s.memRead i) s.poly }) ∧
  (∀ a p : Byte, roundsFn 0 a p = a ∧ ∀ k, roundsFn (k + 1) a p = roundFn (roundsFn k a p) p) ∧
  (∀ a p : Byte, byteFn a a p = 0 ∧ byteFn 0x00#8 0x01#8 p = p) ∧
  (List.range 16).map (fun b => byteFn 0x00#8 (BitVec.ofNat 8 b) 0x31#8) =
    [0x00#8, 0x31#8, 0x62#8, 0x53#8, 0xC4#8, 0xF5#8, 0xA6#8, 0x97#8, 0xB9#8, 0x88#8, 0xDB#8, 0xEA#8, 0x7D#8, 0x4C#8,
      0x1F#8, 0x2E#8] ∧
  encode (.byte 0) = (List.range 9).map (fun k => Code.step5 (BitVec.ofNat 5 (1 + k))) ∧
  encode (.byte 1) = (List.range 9).map (fun k => Code.step5 (BitVec.ofNat 5 (10 + k)))

/-- R47: CRC8 presented to a ready engine ends in DONE with ACC = ROUND^8(ROUND^8(0xFF XOR d0, p) XOR d1, p), the operands in
D[0], D[1] and POLY, and nothing else changed. That one exec stands for the whole transaction is the model's choice (log
entry 7). -/
def Obligations.Crc8RunsWholeTransaction : Prop :=
  (∀ (d0 d1 p : Byte) (s : State), s.ready = true → exec (.crc8 d0 d1 p) s = .next
    { s with
      acc := roundsFn 8 (roundsFn 8 (0xFF#8 ^^^ d0) p ^^^ d1) p
      d0 := d0
      d1 := d1
      poly := p
      step := 19 }) ∧
  (∀ d0 d1 p : Byte, crc8Fn d0 d1 p = byteFn (byteFn 0xFF#8 d0 p) d1 p &&& 0xFF#8) ∧
  (∀ d0 d1 p : Byte, crc8Fn d0 d1 p = roundsFn 8 (roundsFn 8 (0xFF#8 ^^^ d0) p ^^^ d1) p)

/-- R58, R78: a CRC8 presented to a busy engine is lost; the step is the one IGNORE makes. -/
def Obligations.Crc8WhileBusyIsLost : Prop :=
  ∀ (d0 d1 p : Byte) (s : State), s.busy = true →
    ∃ t, exec (.crc8 d0 d1 p) s = .next t ∧ exec .ignore s = .next t ∧ t.d0 = s.d0 ∧ t.d1 = s.d1 ∧ t.poly = s.poly

/-- R38: BYTE i and CRC8 are their expansions, executed one after another: CRC8 is ACCEPT, the eighteen micro-operations STEP
selects, and OUT; and ACCEPT, BYTE 0, BYTE 1, OUT leave the same accumulator and operands. -/
def Obligations.PseudoOperationsAreTheirExpansions : Prop :=
  (∀ (i : ByteIndex) (s : State),
    execAll ((if i = 0 then .xorb0 else .xorb1) :: (List.finRange 8).map (fun k => .round i k)) s = exec (.byte i) s) ∧
  (∀ s : State, s.ready = true →
    execAll (.accept :: (List.replicate 18 .advance ++ [.out])) s =
      exec (.crc8 s.ports.data0 s.ports.data1 s.ports.poly) s) ∧
  (∀ s : State, s.ready = true → ∃ t u,
    exec (.crc8 s.ports.data0 s.ports.data1 s.ports.poly) s = .next t ∧
    execAll [.accept, .byte 0, .byte 1, .out] s = .next u ∧
    u.acc = t.acc ∧ u.d0 = t.d0 ∧ u.d1 = t.d1 ∧ u.poly = t.poly)

/-! ## The sequencer's transitions (42_sequencer.md, 70_reset_and_hazards.md) -/

/-- R55: ACCEPT writes D[0], D[1] and POLY from the ports, 0xFF to ACC and 1 to STEP in one step and nothing else; it happens
exactly when the host requests and the engine is ready; after it the outputs are ready 0, busy 1, done 0, crc 0x00. -/
def Obligations.AcceptLatchesOperands : Prop :=
  (∀ s : State, ∃ t, exec .accept s = .next t ∧
    t = { s with
      d0 := s.ports.data0
      d1 := s.ports.data1
      poly := s.ports.poly
      acc := 0xFF#8
      step := 1 } ∧
    t.outputs = { ready := false, busy := true, done := false, crc := 0x00#8 }) ∧
  (∀ s : State, s.transition = .accept ↔ s.requesting)

/-- R56: in RUN an ADVANCE performs XORB 0 at STEP = 1, XORB 1 at STEP = 10 and ROUND elsewhere, adds 1 to STEP and writes
nothing else; with no reset and no request it is what happens in RUN. -/
def Obligations.AdvancePerformsMicroOperation : Prop :=
  ∀ s : State, 1 ≤ s.step.val → s.step.val ≤ 18 →
    (∃ n : StepNo, n.val = s.step.val + 1 ∧ exec .advance s = .next
      { s with
        acc :=
          if s.step.val = 1 then s.acc ^^^ s.d0
          else if s.step.val = 10 then s.acc ^^^ s.d1
          else roundFn s.acc s.poly
        step := n }) ∧
    (s.ports.rst = false → s.ports.start = false → s.transition = .advance)

/-- R57: HOLD writes nothing and is what happens in IDLE and DONE with no reset and no request; DONE is left only by ACCEPT
or RESET, and IDLE is entered only by RESET. -/
def Obligations.HoldChangesNothing : Prop :=
  (∀ s : State, exec .hold s = .next s) ∧
  (∀ s : State, s.transition = .hold ↔
    s.ports.rst = false ∧ s.ports.start = false ∧ (s.step.val = 0 ∨ s.step.val = 19)) ∧
  (∀ s t : State, step s = .next t → s.step.val = 19 →
    t.step.val = 19 ∨ (s.requesting ∧ t.step.val = 1) ∨ (s.ports.rst = true ∧ t.step.val = 0)) ∧
  (∀ s t : State, step s = .next t → t.step.val = 0 → s.step.val = 0 ∨ s.ports.rst = true)

/-- R58: IGNORE is an ordinary ADVANCE; it is what happens when a request meets a busy engine; and a step of a busy engine is
the same whatever the host drives, as long as it is no reset. -/
def Obligations.IgnoreDropsRequest : Prop :=
  (∀ s : State, 1 ≤ s.step.val → s.step.val ≤ 18 → ∃ n : StepNo, n.val = s.step.val + 1 ∧ exec .ignore s = .next
    { s with
      acc :=
        if s.step.val = 1 then s.acc ^^^ s.d0
        else if s.step.val = 10 then s.acc ^^^ s.d1
        else roundFn s.acc s.poly
      step := n }) ∧
  (∀ s : State, s.transition = .ignore ↔ s.ports.rst = false ∧ s.ports.start = true ∧ s.busy = true) ∧
  (∀ (s : State) (q : Ports), s.busy = true → q.rst = false →
    step { s with ports := q } = step { s with ports := Ports.quiet })

/-- R72: RESET answers STEP = 0 and ACC = 0xFF and leaves what the host drives alone (D[0], D[1] and POLY are unspecified and
nothing is said of them); a step with rst = 1 is a RESET from any state and whatever the other inputs, and the engine is
ready after it; power-on is the same state. -/
def Obligations.ResetEntersIdle : Prop :=
  (∀ s : State, ∃ t, exec .reset s = .next t ∧ t.step.val = 0 ∧ t.acc = 0xFF#8 ∧
    t.ports = s.ports ∧ t.agenda = s.agenda ∧
    t.outputs = { ready := true, busy := false, done := false, crc := 0x00#8 }) ∧
  (∀ s : State, s.transition = .reset ↔ s.ports.rst = true) ∧
  (∀ s : State, s.ports.rst = true → ∃ t, step s = .next t ∧ t.step.val = 0 ∧ t.acc = 0xFF#8 ∧
    t.outputs = { ready := true, busy := false, done := false, crc := 0x00#8 } ∧
    (t.ports.rst = true → t.transition = .reset) ∧
    (t.ports.rst = false → t.transition = if t.ports.start then .accept else .hold)) ∧
  State.reset.step.val = 0 ∧ State.reset.acc = 0xFF#8

/-- R73: a reset during a transaction abandons it: up to the reset no state shows a result, and after it the engine is in
IDLE; a reset in DONE removes the standing result. -/
def Obligations.ResetAbandonsTransaction : Prop :=
  (∀ (s t : State) (k : Nat), s.requesting → k ≤ 17 → s.noReset k → run (k + 1) s = .next t → t.ports.rst = true →
    (∀ (j : Nat) (v : State), j ≤ k → run (j + 1) s = .next v → v.done = false ∧ v.crc = 0x00#8) ∧
    ∃ u, step t = .next u ∧ u.step.val = 0 ∧ u.acc = 0xFF#8 ∧ u.done = false ∧ u.crc = 0x00#8) ∧
  (∀ t : State, t.step.val = 19 → t.ports.rst = true →
    ∃ u, step t = .next u ∧ u.step.val = 0 ∧ u.done = false ∧ u.crc = 0x00#8)

/-- R34: the control word selects exactly one of the five transitions, by rst, start and ready. -/
def Obligations.ControlWordSelectsTransition : Prop :=
  (∀ s : State, s.transition =
    if s.ports.rst then .reset
    else if s.ports.start then (if s.step.val = 0 ∨ s.step.val = 19 then .accept else .ignore)
    else if s.step.val = 0 ∨ s.step.val = 19 then .hold else .advance) ∧
  (List.range 8).map (fun w => decodeCtl3 (BitVec.ofNat 3 w)) =
    [.advance, .hold, .ignore, .accept, .reset, .reset, .reset, .reset]

/-- 42_sequencer.md section 1: a step is the transition the control word decodes to, and then the host drives the next entry
of its agenda, or nothing when there is none (the model's environment, log entry 1). -/
def Obligations.StepRunsFetchedTransition : Prop :=
  ∀ (s : State) (i : Instr), decode (.ctl3 s.controlWord) = .ok i →
    ∃ t, exec i s = .next t ∧
      step s = .next { t with ports := t.agenda.headD Ports.quiet, agenda := t.agenda.tail }

/-- R32, R56: in RUN with no reset a step executes the micro-operation that STEP decodes to, then adds 1 to STEP. That exec of
a micro-operation leaves STEP and the step adds the 1 is the model's reading (log entry 5, DEDUCED), and that the host then
drives the next entry of its agenda is the model's environment (log entry 1, DESIGN CHOICE). -/
def Obligations.StepRunsFetchedMicroOperation : Prop :=
  ∀ (s : State) (i : Instr), 1 ≤ s.step.val → s.step.val ≤ 18 → s.ports.rst = false → decode (.step5 s.stepWord) = .ok i →
    ∃ (t : State) (n : StepNo), exec i s = .next t ∧ n.val = s.step.val + 1 ∧
      step s = .next { t with step := n, ports := t.agenda.headD Ports.quiet, agenda := t.agenda.tail }

/-- The model's placing of an opcode-table word (log entries 9 and 10): the next step accepts the request of a 24-bit word,
runs the micro-operation of a STEP word, takes the transition of a control word, and shows the response of a byte that is no
STEP word. -/
def Obligations.PlacedTableWordRunsNext : Prop :=
  (∀ (s : State) (w : BitVec 24),
    (s.withFetchWord 24 w.toNat).requesting ∧ (s.withFetchWord 24 w.toNat).ports.req24 = w) ∧
  (∀ (s : State) (n : StepNo), ∃ (i : Instr) (t : State), decodeTableWord 8 n.val = some i ∧
    exec i (s.withFetchWord 8 n.val) = .next t ∧ (s.withFetchWord 8 n.val).step = n ∧
    step (s.withFetchWord 8 n.val) = .next ({ t with step := nextStep n } : State).hostMove) ∧
  (∀ (s : State) (w : BitVec 3), decodeTableWord 3 w.toNat = some (s.withFetchWord 3 w.toNat).transition) ∧
  (∀ (s : State) (w : BitVec 8), 32 ≤ w.toNat →
    decodeTableWord 8 w.toNat = some (.rsp8 w) ∧ (s.withFetchWord 8 w.toNat).response = some w)

/-! ## State, outputs and reset (10_state.md) -/

/-- R16: the outputs are functions of STEP and ACC; exactly one phase holds; busy excludes ready and done; done implies
ready. -/
def Obligations.OutputsFollowStepAndAcc : Prop :=
  ∀ s : State,
    s.ready = decide (s.step.val = 0 ∨ s.step.val = 19) ∧
    s.busy = decide (1 ≤ s.step.val ∧ s.step.val ≤ 18) ∧
    s.done = decide (s.step.val = 19) ∧
    s.crc = (if s.step.val = 19 then s.acc &&& 0xFF#8 else 0x00#8) ∧
    (s.phase = .idle ↔ s.step.val = 0) ∧
    (s.phase = .run ↔ 1 ≤ s.step.val ∧ s.step.val ≤ 18) ∧
    (s.phase = .done ↔ s.step.val = 19) ∧
    (s.busy = true → s.ready = false ∧ s.done = false) ∧
    (s.done = true → s.ready = true)

/-- R17: while done is 0 the port crc drives 0x00 whatever ACC holds, and 0x00 is also a legitimate result. -/
def Obligations.PartialResultIsNeverShown : Prop :=
  (∀ s : State, s.step.val ≤ 18 → s.done = false ∧ s.crc = 0x00#8 ∧ s.response = none) ∧
  (∀ p : Byte, crc8Fn 0xFF#8 0x00#8 p = 0x00#8) ∧
  (∀ s : State, s.requesting → s.noReset 18 → s.ports.data0 = 0xFF#8 → s.ports.data1 = 0x00#8 →
    ∃ t, run 19 s = .next t ∧ t.done = true ∧ t.crc = 0x00#8)

/-- R18: the reset state has STEP = 0 and ACC = 0xFF, with the outputs that follow; and what its other registers hold is never
observed: two machines in IDLE under the same host (what it drives stands in the state: log entry 1) show the same outputs after any number of steps, whatever ACC, D[0], D[1],
POLY and the free values drawn. Nothing here rests on the zeros State.reset names (log entry 2). -/
def Obligations.ResetValuesAreUnobservable : Prop :=
  State.reset.step.val = 0 ∧ State.reset.acc = 0xFF#8 ∧
  State.reset.outputs = { ready := true, busy := false, done := false, crc := 0x00#8 } ∧
  ∀ (n : Nat) (s t : State), s.step.val = 0 → t.step.val = 0 → t.ports = s.ports → t.agenda = s.agenda →
    ∃ u v, run n s = .next u ∧ run n t = .next v ∧ u.outputs = v.outputs

/-- R9, R10, R20: D[0], D[1] and POLY are written only by ACCEPT, by the CRC8 that performs it, and by RESET, which leaves
them unspecified. -/
def Obligations.OperandsWrittenOnlyByAccept : Prop :=
  ∀ (i : Instr) (s t : State), exec i s = .next t → (t.d0 ≠ s.d0 ∨ t.d1 ≠ s.d1 ∨ t.poly ≠ s.poly) →
    i = .accept ∨ i = .reset ∨ (s.ready = true ∧ ∃ d0 d1 p, i = .crc8 d0 d1 p)

/-- R26: no operation writes anything the host owns: what the host drives, now and later (in the state by log entry 1), is
left alone by every instruction. -/
def Obligations.HostValuesAreLeftAlone : Prop :=
  ∀ (i : Instr) (s t : State), exec i s = .next t → t.ports = s.ports ∧ t.agenda = s.agenda

/-- R13: STEP rises by exactly 1 in every step in RUN, and falls only by ACCEPT, to 1, and by RESET, to 0; from 19 it does not
advance. -/
def Obligations.StepCounterRisesByOne : Prop :=
  ∀ s t : State, step s = .next t →
    (s.ports.rst = true → t.step.val = 0) ∧
    (s.ports.rst = false → 1 ≤ s.step.val → s.step.val ≤ 18 → t.step.val = s.step.val + 1) ∧
    (t.step.val < s.step.val → (s.ports.rst = true ∧ t.step.val = 0) ∨ (s.requesting ∧ t.step.val = 1)) ∧
    t.step.val ≤ 19

/-- R20, R22: the operand buffer has two locations, the first byte at index 0; after an ACCEPT the reads give the operands in
order; the order matters. -/
def Obligations.OperandBufferKeepsOrder : Prop :=
  (∀ s : State, s.memRead 0 = s.d0 ∧ s.memRead 1 = s.d1) ∧
  (∀ s : State, ∃ t, exec .accept s = .next t ∧ t.memRead 0 = s.ports.data0 ∧ t.memRead 1 = s.ports.data1) ∧
  crc8Fn 0x01#8 0x00#8 0x31#8 = 0x75#8 ∧ crc8Fn 0x00#8 0x01#8 0x31#8 = 0xB0#8

/-- R68: nothing in the engine fails: every instruction in every state, and every step of every state, answers a next
state. -/
def Obligations.NothingInTheEngineFails : Prop :=
  (∀ (i : Instr) (s : State), ∃ t, exec i s = .next t) ∧ (∀ s : State, ∃ t, step s = .next t)

/-! ## Invariant, transaction and runs -/

/-- The reset state is coherent (R18). -/
def Obligations.ResetStateIsCoherent : Prop := State.reset.Coherent

/-- Every step keeps coherence: in IDLE the accumulator is 0xFF, and in RUN and DONE it is what the algorithm has for the
latched operands after STEP - 1 micro-operations (R18, R59 item 3), whatever the host does. -/
def Obligations.StepKeepsCoherence : Prop :=
  ∀ s t : State, s.Coherent → step s = .next t → t.Coherent

/-- R59, the transaction theorem: from any state with STEP = 0 or 19, an ACCEPT and eighteen steps without reset, with any
values on the other ports. -/
def Obligations.TransactionComputesCrc8 : Prop :=
  ∀ s : State, s.requesting → s.noReset 18 →
    (∀ k : Nat, k ≤ 18 → ∃ t, run (k + 1) s = .next t ∧ t.step.val = k + 1 ∧
      t.acc = (if k = 0 then 0xFF#8
        else if k ≤ 9 then roundsFn (k - 1) (0xFF#8 ^^^ s.ports.data0) s.ports.poly
        else roundsFn (k - 10) (byteFn 0xFF#8 s.ports.data0 s.ports.poly ^^^ s.ports.data1) s.ports.poly) ∧
      (k < 18 → t.transition = .advance ∨ t.transition = .ignore)) ∧
    (∃ t, run 19 s = .next t ∧ t.step.val = 19 ∧ t.acc = crc8Fn s.ports.data0 s.ports.data1 s.ports.poly ∧
      t.done = true ∧ t.crc = crc8Fn s.ports.data0 s.ports.data1 s.ports.poly ∧
      (t.ports.rst = false → t.ports.start = false →
        t.transition = .hold ∧ ∃ u, step t = .next u ∧ u.step.val = 19 ∧ u.crc = t.crc))

/-- The run of steps and the one instruction agree: nineteen steps from a request leave the registers that CRC8 leaves, and
have used nineteen entries of what the host drives (R38, R59). That CRC8 is one exec is the model's reading (log entry 7), and
the agenda with its entry a step, quiet at its end, is the model's environment (log entry 1, DESIGN CHOICE). -/
def Obligations.StepsOfTransactionAgreeWithCrc8 : Prop :=
  ∀ s : State, s.requesting → s.noReset 18 → ∃ t,
    exec (.crc8 s.ports.data0 s.ports.data1 s.ports.poly) s = .next t ∧
    run 19 s = .next { t with ports := (s.agenda.drop 18).headD Ports.quiet, agenda := s.agenda.drop 19 }

/-- R12, R59 item 4: the result depends on the three operands only: two machines with any registers and any agendas that
request with the same operands end with the same registers and outputs. -/
def Obligations.ResultDependsOnOperandsOnly : Prop :=
  ∀ s t : State, s.requesting → t.requesting → s.noReset 18 → t.noReset 18 →
    s.ports.data0 = t.ports.data0 → s.ports.data1 = t.ports.data1 → s.ports.poly = t.ports.poly →
    ∃ u v, run 19 s = .next u ∧ run 19 t = .next v ∧ u.outputs = v.outputs ∧ u.response = v.response ∧
      u.acc = v.acc ∧ u.d0 = v.d0 ∧ u.d1 = v.d1 ∧ u.poly = v.poly ∧ u.step = v.step

/-- R57: a result, or the absence of one in IDLE, stands for as long as the host does nothing. That the host uses up one entry
of its agenda a step is the model's environment (log entry 1, DESIGN CHOICE). -/
def Obligations.ReadyEngineStandsStill : Prop :=
  ∀ (n : Nat) (s : State), s.ready = true → s.hostQuiet n → ∃ t, run n s = .next t ∧
    t = { s with ports := t.ports, agenda := s.agenda.drop n }

/-- R61, R77: an accepted transaction that is not reset is done after exactly eighteen further steps and not before. -/
def Obligations.DoneAfterExactlyEighteenSteps : Prop :=
  ∀ s : State, s.requesting → s.noReset 18 →
    (∀ k : Nat, k < 18 → ∃ t, run (k + 1) s = .next t ∧ t.done = false ∧ t.busy = true) ∧
    ∃ t, run 19 s = .next t ∧ t.done = true ∧ t.busy = false

/-- The step lemma behind R18: indistinguishability is kept by every step and gives equal outputs, so that what the spec leaves
unspecified in D[0], D[1] and POLY never comes to light, nor does ACC in IDLE. What the host drives stands in the state by log
entry 1 (DESIGN CHOICE). -/
def Obligations.StepKeepsIndistinguishability : Prop :=
  ∀ s t u v : State, s.Indistinguishable t → step s = .next u → step t = .next v →
    u.Indistinguishable v ∧ s.outputs = t.outputs ∧ u.outputs = v.outputs

/-! ## The function's properties (41_crc8_operation.md section 3 and 4, 40_microops.md section 5) -/

/-- R45: an accumulator in a wider type without the truncation agrees with ACC in its low 8 bits after every round and every
XORB, and with CRC8 after the final mask. -/
def Obligations.WideAccumulatorAgrees : Prop :=
  (∀ (r : Nat) (p : Byte), wideRound r p % 256 = (roundFn (BitVec.ofNat 8 r) p).toNat) ∧
  (∀ (r : Nat) (b : Byte), (r ^^^ b.toNat) % 256 = (BitVec.ofNat 8 r ^^^ b).toNat) ∧
  (∀ d0 d1 p : Byte, wideCrc8 d0 d1 p = (crc8Fn d0 d1 p).toNat)

/-- R51: for every polynomial but 0x00, flipping any one input bit changes the result; for 0x00 none does; the difference
depends on the flipped bits and the polynomial only. -/
def Obligations.SingleBitFlipIsDetected : Prop :=
  (∀ (d0 d1 p : Byte) (j : Fin 8), p ≠ 0x00#8 →
    crc8Fn (d0 ^^^ (1#8 <<< j.val)) d1 p ≠ crc8Fn d0 d1 p ∧ crc8Fn d0 (d1 ^^^ (1#8 <<< j.val)) p ≠ crc8Fn d0 d1 p) ∧
  (∀ (d0 d1 : Byte) (j : Fin 8),
    crc8Fn (d0 ^^^ (1#8 <<< j.val)) d1 0x00#8 = crc8Fn d0 d1 0x00#8 ∧
    crc8Fn d0 (d1 ^^^ (1#8 <<< j.val)) 0x00#8 = crc8Fn d0 d1 0x00#8) ∧
  (∀ d0 d1 e0 e1 p : Byte,
    crc8Fn (d0 ^^^ e0) (d1 ^^^ e1) p ^^^ crc8Fn d0 d1 p = crc8Fn e0 e1 p ^^^ crc8Fn 0x00#8 0x00#8 p)

/-- R52: with polynomial 0x00 a round is a plain shift, and every result is 0x00, of the function and of the machine, which
runs the same eighteen micro-operations. -/
def Obligations.ZeroPolynomialShiftsEverythingOut : Prop :=
  (∀ a : Byte, roundFn a 0x00#8 = a <<< 1) ∧
  (∀ x : Byte, roundsFn 8 x 0x00#8 = 0x00#8) ∧
  (∀ a b : Byte, byteFn a b 0x00#8 = 0x00#8) ∧
  (∀ d0 d1 : Byte, crc8Fn d0 d1 0x00#8 = 0x00#8) ∧
  (∀ s : State, s.requesting → s.noReset 18 → s.ports.poly = 0x00#8 →
    ∃ t, run 19 s = .next t ∧ t.step.val = 19 ∧ t.crc = 0x00#8)

/-- R53: eight rounds are linear in the byte, and BYTE and CRC8 decompose accordingly; a result processed with itself gives
0x00. -/
def Obligations.ResultIsAffineInTheInput : Prop :=
  (∀ x y p : Byte, roundsFn 8 (x ^^^ y) p = roundsFn 8 x p ^^^ roundsFn 8 y p) ∧
  (∀ p : Byte, roundsFn 8 0x00#8 p = 0x00#8) ∧
  (∀ a b p : Byte, byteFn a b p = roundsFn 8 a p ^^^ roundsFn 8 b p) ∧
  (∀ d0 d1 p : Byte, crc8Fn d0 d1 p =
    roundsFn 8 (roundsFn 8 0xFF#8 p) p ^^^ roundsFn 8 (roundsFn 8 d0 p) p ^^^ roundsFn 8 d1 p) ∧
  (∀ d0 d1 p : Byte, crc8Fn d0 d1 p =
    crc8Fn 0x00#8 0x00#8 p ^^^ roundsFn 8 (roundsFn 8 d0 p) p ^^^ roundsFn 8 d1 p) ∧
  (∀ d1 p : Byte, crc8Fn 0xFF#8 d1 p = roundsFn 8 d1 p) ∧
  (∀ d0 d1 p : Byte, byteFn (crc8Fn d0 d1 p) (crc8Fn d0 d1 p) p = 0x00#8)

/-- R53: for an odd polynomial ROUND is injective and different second bytes give different results; for an even one bit 0 of
every round's result is 0. -/
def Obligations.OddPolynomialKeepsBytesApart : Prop :=
  (∀ p : Byte, p.getLsbD 0 = true →
    (∀ a a' : Byte, roundFn a p = roundFn a' p → a = a') ∧
    (∀ d0 d1 d1' : Byte, crc8Fn d0 d1 p = crc8Fn d0 d1' p → d1 = d1')) ∧
  (∀ p : Byte, p.getLsbD 0 = false → ∀ a : Byte, (roundFn a p).getLsbD 0 = false)

/-- R54: the three golden values, of the function and of the machine in a transaction from its reset state. -/
def Obligations.GoldenVectors : Prop :=
  crc8Fn 0x00#8 0x00#8 0x31#8 = 0x81#8 ∧ crc8Fn 0xBE#8 0xEF#8 0x31#8 = 0x92#8 ∧ crc8Fn 0xFF#8 0xFF#8 0x31#8 = 0xAC#8 ∧
  (∃ t, run 19 { State.reset with ports := Ports.request 0x00#8 0x00#8 0x31#8 } = .next t ∧
    t.done = true ∧ t.crc = 0x81#8) ∧
  (∃ t, run 19 { State.reset with ports := Ports.request 0xBE#8 0xEF#8 0x31#8 } = .next t ∧
    t.done = true ∧ t.crc = 0x92#8) ∧
  (∃ t, run 19 { State.reset with ports := Ports.request 0xFF#8 0xFF#8 0x31#8 } = .next t ∧
    t.done = true ∧ t.crc = 0xAC#8)

/-! ## The boundary, the clock and several engines -/

/-- R63: at a list-typed boundary every length but 2 is rejected with that length before anything is computed; two bytes give
their CRC8. How the outcome is delivered is left open by R66 and is the model's choice: an error value of the function, a
fault of the machine that carries the length (log entry 14, DESIGN CHOICE), and for two bytes the one exec of CRC8 (log entry
7, DEDUCED), also while the engine is busy, where that call is lost and not held back (log entry 20, DESIGN CHOICE). -/
def Obligations.WrongLengthIsRejected : Prop :=
  (∀ (data : List Byte) (p : Byte) (s : State), data.length ≠ 2 →
    crc8Checked data p = .error (.invalidInputLength data.length) ∧
    callChecked data p s = .fault (.invalidInputLength data.length)) ∧
  (∀ (b0 b1 p : Byte) (s : State),
    crc8Checked [b0, b1] p = .ok (crc8Fn b0 b1 p) ∧ callChecked [b0, b1] p s = exec (.crc8 b0 b1 p) s) ∧
  (∀ data : List Byte, dataWellFormed data = true ↔ ∃ b0 b1, data = [b0, b1])

/-- R60: one clock cycle of an implementation with any UNROLL u of at least 1 is a run of the step machine, of at least one
and at most u steps, in which the host does nothing at the unsampled steps. That a cycle samples the ports once and stops in
DONE is the model's choice (log entry 13, DESIGN CHOICE). -/
def Obligations.UnrolledCycleIsRunOfSteps : Prop :=
  1 ≤ Config.unroll ∧
  ∀ (u : Nat) (s : State), 1 ≤ u → ∃ k, 1 ≤ k ∧ k ≤ u ∧
    run k { s with agenda := List.replicate (k - 1) Ports.quiet ++ s.agenda } = .next (s.clockCycle u)

/-- R60, R77: from ACCEPT to DONE such an implementation takes 18 divided by UNROLL cycles, rounded up, and delivers the same
result. -/
def Obligations.CyclesPerTransaction : Prop :=
  ∀ (u : Nat) (s : State), 1 ≤ u → s.requesting → s.noReset ((18 + u - 1) / u) →
    (∀ j : Nat, j < (18 + u - 1) / u → (times (State.clockCycle u) (j + 1) s).busy = true) ∧
    (times (State.clockCycle u) ((18 + u - 1) / u + 1) s).done = true ∧
    (times (State.clockCycle u) ((18 + u - 1) / u + 1) s).crc = crc8Fn s.ports.data0 s.ports.data1 s.ports.poly

/-- R28: engines share nothing: a step of one is that engine's own step and leaves every other as it was. -/
def Obligations.EnginesShareNothing : Prop :=
  ∀ (n : Nat) (bank : List State) (s : State), bank[n]? = some s →
    ∃ bank' t, stepEngine n bank = some bank' ∧ step s = .next t ∧ bank'[n]? = some t ∧
      bank'.length = bank.length ∧ ∀ m : Nat, m ≠ n → bank'[m]? = bank[m]?

/-! ## Encodings (30_encoding.md) -/

/-- Decoding the words of an instruction gives what they issue: for every well-formed instruction its one word gives the
instruction back, with every operand at every value (R31 to R34), and the words of BYTE give its expansion (R38). What the
model makes of INIT and BYTE as words is its own reading (log entry 11, DEDUCED): the encoder gives INIT the word of the
ACCEPT it is part of, that word issues ACCEPT, and both are excluded by `wellFormed` as having no word of their own. -/
def Obligations.DecodeGivesBackEncoded : Prop :=
  (∀ i : Instr, decodeAll (encode i) = .ok i.issued) ∧
  encode .init = encode .accept ∧
  (∀ i : Instr, i.wellFormed = true → ∃ c, encode i = [c] ∧ decode c = .ok i)

/-- Each word has one meaning: a word that decodes is the encoding of what it decodes to, but for the words of RESET, whose
start and ready bits are free (R34). -/
def Obligations.EncodeGivesBackDecoded : Prop :=
  (∀ (c : Code) (i : Instr), decode c = .ok i → i ≠ .reset → encode i = [c]) ∧
  (∀ c : Code, decode c = .ok .reset ↔ ∃ w : BitVec 3, c = .ctl3 w ∧ w.getLsbD 2 = true)

/-- R31: the request word is poly, data0, data1 from the top byte down, and the ports carry the same three operands. -/
def Obligations.RequestWordHoldsOperands : Prop :=
  (∀ d0 d1 p : Byte, decode (.req24 (p ++ d0 ++ d1)) = .ok (.crc8 d0 d1 p)) ∧
  (∀ w : BitVec 24, decode (.req24 w) =
    .ok (.crc8 (w.extractLsb' 8 8) (w.extractLsb' 0 8) (w.extractLsb' 16 8))) ∧
  (∀ i : Ports, decode (.req24 i.req24) = .ok (.crc8 i.data0 i.data1 i.poly)) ∧
  decode (.req24 0x31BEEF#24) = .ok (.crc8 0xBE#8 0xEF#8 0x31#8)

/-- R32: the hardwired micro-program, its phases, the arithmetic of its positions and its column 'Next STEP'. -/
def Obligations.MicroProgramIsTheTable : Prop :=
  (List.range 20).map (fun n => decode (.step5 (BitVec.ofNat 5 n))) =
    ([.idle, .xorb0, .round 0 0, .round 0 1, .round 0 2, .round 0 3, .round 0 4, .round 0 5, .round 0 6, .round 0 7,
      .xorb1, .round 1 0, .round 1 1, .round 1 2, .round 1 3, .round 1 4, .round 1 5, .round 1 6, .round 1 7,
      .out] : List Instr).map Except.ok ∧
  (List.finRange 20).map phaseOf = [.idle] ++ List.replicate 18 .run ++ [.done] ∧
  (∀ n : StepNo, 1 ≤ n.val → n.val ≤ 18 →
    ((n.val - 1) % 9 = 0 ∧ ∃ i : ByteIndex, i.val = (n.val - 1) / 9 ∧ microProgram n = .xorb i) ∨
    (∃ (i : ByteIndex) (k : Fin 8), i.val = (n.val - 1) / 9 ∧ k.val + 1 = (n.val - 1) % 9 ∧
      microProgram n = .round i k)) ∧
  (∀ s t : State, s.ports.rst = false → step s = .next t →
    t.step.val = if s.step.val = 0 ∨ s.step.val = 19 then (if s.ports.start then 1 else s.step.val)
      else s.step.val + 1)

/-- R36: every request word is legal, and the STEP values 20 to 31, and only those, are rejected by name. -/
def Obligations.OnlyReservedStepsAreRejected : Prop :=
  (∀ w : BitVec 24, ∃ d0 d1 p, decode (.req24 w) = .ok (.crc8 d0 d1 p)) ∧
  (∀ w : BitVec 5, decode (.step5 w) = .error (.reservedStep w) ↔ 20 ≤ w.toNat) ∧
  (∀ c : Code, (∃ i, decode c = .ok i) ∨ ∃ w : BitVec 5, c = .step5 w ∧ 20 ≤ w.toNat)

/-- Words written out from the encodings of 30_encoding.md decode to what they stand for, one or more for each format. -/
def Obligations.SpecWordsDecode : Prop :=
  decode (.req24 0b001100011011111011101111#24) = .ok (.crc8 0xBE#8 0xEF#8 0x31#8) ∧
  decode (.rsp8 0b10010010#8) = .ok (.rsp8 0x92#8) ∧
  decode (.step5 0b00000#5) = .ok .idle ∧
  decode (.step5 0b00001#5) = .ok .xorb0 ∧
  decode (.step5 0b01001#5) = .ok (.round 0 7) ∧
  decode (.step5 0b01010#5) = .ok .xorb1 ∧
  decode (.step5 0b01011#5) = .ok (.round 1 0) ∧
  decode (.step5 0b10011#5) = .ok .out ∧
  decode (.ctl3 0b110#3) = .ok .reset ∧
  decode (.ctl3 0b011#3) = .ok .accept ∧
  decode (.ctl3 0b001#3) = .ok .hold ∧
  decode (.ctl3 0b000#3) = .ok .advance ∧
  decode (.ctl3 0b010#3) = .ok .ignore
end

