-- ==== Sys2Proof/Laws/Arith.lean ====
section
/-! SUPPORT. The small lemmas of the function layer: iteration, the round in plain form, and its parts. -/

namespace Sys2Proof

@[simp] theorem times_zero {α : Type} (f : α → α) (x : α) : times f 0 x = x := rfl

theorem times_succ {α : Type} (f : α → α) (n : Nat) (x : α) : times f (n + 1) x = times f n (f x) := rfl

/-- The last application comes outermost. -/
theorem times_succ_outer {α : Type} (f : α → α) (n : Nat) (x : α) : times f (n + 1) x = f (times f n x) := by
  induction n generalizing x with
  | zero => rfl
  | succ n ih => rw [times_succ, ih, times_succ]

theorem times_add {α : Type} (f : α → α) (m n : Nat) (x : α) : times f (m + n) x = times f n (times f m x) := by
  induction m generalizing x with
  | zero => simp
  | succ m ih => rw [Nat.succ_add, times_succ, ih, times_succ]

/-- An operation kept by every application is kept by their iteration. -/
theorem times_invariant {α : Type} {P : α → Prop} {f : α → α} (h : ∀ x, P x → P (f x)) (n : Nat) {x : α} (hx : P x) :
    P (times f n x) := by
  induction n generalizing x with
  | zero => exact hx
  | succ n ih => exact ih (h x hx)

namespace Machine

/-- Truncating the nine-bit shift is the shift of the byte. -/
@[simp] theorem trunc8_shiftLeftWide (a : Byte) : trunc8 (shiftLeftWide a) = a <<< 1 := by
  ext i hi
  simp [trunc8, shiftLeftWide, BitVec.getElem_shiftLeft]

/-- ROUND by its two branches (R41). -/
theorem roundFn_eq (a p : Byte) : roundFn a p = if a.getLsbD 7 then a <<< 1 ^^^ p else a <<< 1 := by
  unfold roundFn Config.highBit
  split <;> simp

/-- Zero is a fixed point of ROUND (R41). -/
@[simp] theorem roundFn_zero (p : Byte) : roundFn 0 p = 0 := by simp [roundFn_eq]

@[simp] theorem roundsFn_zero (a p : Byte) : roundsFn 0 a p = a := rfl

theorem roundsFn_succ (n : Nat) (a p : Byte) : roundsFn (n + 1) a p = roundFn (roundsFn n a p) p :=
  times_succ_outer _ n a

/-- The output mask is the identity on a byte (R43). -/
@[simp] theorem and_outputMask (a : Byte) : a &&& Config.outputMask = a := by
  exact BitVec.and_allOnes

/-- CRC8 without the mask (R47). -/
theorem crc8Fn_eq (d0 d1 p : Byte) :
    crc8Fn d0 d1 p = roundsFn 8 (roundsFn 8 (0xFF#8 ^^^ d0) p ^^^ d1) p := by
  simp [crc8Fn, byteFn, Config.roundsPerByte, Config.initAcc]

end Machine

end Sys2Proof
end

