-- ==== Sys2Proof/Laws/State.lean ====
section
/-! SUPPORT. One lemma per field of State per named update, each true by computation, so that no proof unfolds an update. The
operand buffer's laws stand at the end. -/

namespace Sys2Proof.Machine

@[simp] theorem State.setAcc_acc (v : Byte) (s : State) : (s.setAcc v).acc = v := rfl
@[simp] theorem State.setAcc_d0 (v : Byte) (s : State) : (s.setAcc v).d0 = s.d0 := rfl
@[simp] theorem State.setAcc_d1 (v : Byte) (s : State) : (s.setAcc v).d1 = s.d1 := rfl
@[simp] theorem State.setAcc_poly (v : Byte) (s : State) : (s.setAcc v).poly = s.poly := rfl
@[simp] theorem State.setAcc_step (v : Byte) (s : State) : (s.setAcc v).step = s.step := rfl
@[simp] theorem State.setAcc_ports (v : Byte) (s : State) : (s.setAcc v).ports = s.ports := rfl
@[simp] theorem State.setAcc_agenda (v : Byte) (s : State) : (s.setAcc v).agenda = s.agenda := rfl
@[simp] theorem State.setAcc_draws (v : Byte) (s : State) : (s.setAcc v).draws = s.draws := rfl

@[simp] theorem State.setPoly_acc (v : Byte) (s : State) : (s.setPoly v).acc = s.acc := rfl
@[simp] theorem State.setPoly_d0 (v : Byte) (s : State) : (s.setPoly v).d0 = s.d0 := rfl
@[simp] theorem State.setPoly_d1 (v : Byte) (s : State) : (s.setPoly v).d1 = s.d1 := rfl
@[simp] theorem State.setPoly_poly (v : Byte) (s : State) : (s.setPoly v).poly = v := rfl
@[simp] theorem State.setPoly_step (v : Byte) (s : State) : (s.setPoly v).step = s.step := rfl
@[simp] theorem State.setPoly_ports (v : Byte) (s : State) : (s.setPoly v).ports = s.ports := rfl
@[simp] theorem State.setPoly_agenda (v : Byte) (s : State) : (s.setPoly v).agenda = s.agenda := rfl
@[simp] theorem State.setPoly_draws (v : Byte) (s : State) : (s.setPoly v).draws = s.draws := rfl

@[simp] theorem State.setStep_acc (n : StepNo) (s : State) : (s.setStep n).acc = s.acc := rfl
@[simp] theorem State.setStep_d0 (n : StepNo) (s : State) : (s.setStep n).d0 = s.d0 := rfl
@[simp] theorem State.setStep_d1 (n : StepNo) (s : State) : (s.setStep n).d1 = s.d1 := rfl
@[simp] theorem State.setStep_poly (n : StepNo) (s : State) : (s.setStep n).poly = s.poly := rfl
@[simp] theorem State.setStep_step (n : StepNo) (s : State) : (s.setStep n).step = n := rfl
@[simp] theorem State.setStep_ports (n : StepNo) (s : State) : (s.setStep n).ports = s.ports := rfl
@[simp] theorem State.setStep_agenda (n : StepNo) (s : State) : (s.setStep n).agenda = s.agenda := rfl
@[simp] theorem State.setStep_draws (n : StepNo) (s : State) : (s.setStep n).draws = s.draws := rfl

@[simp] theorem State.memWrite_zero_acc (v : Byte) (s : State) : (s.memWrite 0 v).acc = s.acc := rfl
@[simp] theorem State.memWrite_zero_d0 (v : Byte) (s : State) : (s.memWrite 0 v).d0 = v := rfl
@[simp] theorem State.memWrite_zero_d1 (v : Byte) (s : State) : (s.memWrite 0 v).d1 = s.d1 := rfl
@[simp] theorem State.memWrite_zero_poly (v : Byte) (s : State) : (s.memWrite 0 v).poly = s.poly := rfl
@[simp] theorem State.memWrite_zero_step (v : Byte) (s : State) : (s.memWrite 0 v).step = s.step := rfl
@[simp] theorem State.memWrite_zero_ports (v : Byte) (s : State) : (s.memWrite 0 v).ports = s.ports := rfl
@[simp] theorem State.memWrite_zero_agenda (v : Byte) (s : State) : (s.memWrite 0 v).agenda = s.agenda := rfl
@[simp] theorem State.memWrite_zero_draws (v : Byte) (s : State) : (s.memWrite 0 v).draws = s.draws := rfl

@[simp] theorem State.memWrite_one_acc (v : Byte) (s : State) : (s.memWrite 1 v).acc = s.acc := rfl
@[simp] theorem State.memWrite_one_d0 (v : Byte) (s : State) : (s.memWrite 1 v).d0 = s.d0 := rfl
@[simp] theorem State.memWrite_one_d1 (v : Byte) (s : State) : (s.memWrite 1 v).d1 = v := rfl
@[simp] theorem State.memWrite_one_poly (v : Byte) (s : State) : (s.memWrite 1 v).poly = s.poly := rfl
@[simp] theorem State.memWrite_one_step (v : Byte) (s : State) : (s.memWrite 1 v).step = s.step := rfl
@[simp] theorem State.memWrite_one_ports (v : Byte) (s : State) : (s.memWrite 1 v).ports = s.ports := rfl
@[simp] theorem State.memWrite_one_agenda (v : Byte) (s : State) : (s.memWrite 1 v).agenda = s.agenda := rfl
@[simp] theorem State.memWrite_one_draws (v : Byte) (s : State) : (s.memWrite 1 v).draws = s.draws := rfl

@[simp] theorem State.drawOperands_acc (s : State) : (s.drawOperands).acc = s.acc := rfl
@[simp] theorem State.drawOperands_d0 (s : State) : (s.drawOperands).d0 = Config.freeByte s.draws := rfl
@[simp] theorem State.drawOperands_d1 (s : State) : (s.drawOperands).d1 = Config.freeByte (s.draws + 1) := rfl
@[simp] theorem State.drawOperands_poly (s : State) : (s.drawOperands).poly = Config.freeByte (s.draws + 2) := rfl
@[simp] theorem State.drawOperands_step (s : State) : (s.drawOperands).step = s.step := rfl
@[simp] theorem State.drawOperands_ports (s : State) : (s.drawOperands).ports = s.ports := rfl
@[simp] theorem State.drawOperands_agenda (s : State) : (s.drawOperands).agenda = s.agenda := rfl
@[simp] theorem State.drawOperands_draws (s : State) : (s.drawOperands).draws = s.draws + 3 := rfl

@[simp] theorem State.hostMove_acc (s : State) : (s.hostMove).acc = s.acc := rfl
@[simp] theorem State.hostMove_d0 (s : State) : (s.hostMove).d0 = s.d0 := rfl
@[simp] theorem State.hostMove_d1 (s : State) : (s.hostMove).d1 = s.d1 := rfl
@[simp] theorem State.hostMove_poly (s : State) : (s.hostMove).poly = s.poly := rfl
@[simp] theorem State.hostMove_step (s : State) : (s.hostMove).step = s.step := rfl
@[simp] theorem State.hostMove_ports (s : State) : (s.hostMove).ports = s.agenda.headD Ports.quiet := rfl
@[simp] theorem State.hostMove_agenda (s : State) : (s.hostMove).agenda = s.agenda.tail := rfl
@[simp] theorem State.hostMove_draws (s : State) : (s.hostMove).draws = s.draws := rfl

@[simp] theorem State.memRead_zero (s : State) : s.memRead 0 = s.d0 := rfl
@[simp] theorem State.memRead_one (s : State) : s.memRead 1 = s.d1 := rfl

/-- The operand buffer is two separate bytes: a read after a write gives the value written at that index and what stood there
at the other (20_memory.md R20, R22). -/
theorem State.memRead_memWrite (s : State) (i j : ByteIndex) (v : Byte) :
    (s.memWrite i v).memRead j = if j = i then v else s.memRead j := by
  fin_cases i <;> fin_cases j <;> rfl

end Sys2Proof.Machine
end

