-- ==== Sys2Proof/Laws/Ops.lean ====
section
/-! SUPPORT. One lemma per shared operation that says once all it can do, so that later proofs cite it instead of unfolding
the operation. -/

namespace Sys2Proof.Machine

theorem State.doInit_eq (s : State) : s.doInit = { s with acc := 0xFF#8 } := rfl

theorem State.doXorb_eq (i : ByteIndex) (s : State) : s.doXorb i = { s with acc := s.acc ^^^ s.memRead i } := rfl

theorem State.doRound_eq (s : State) : s.doRound = { s with acc := roundFn s.acc s.poly } := rfl

/-- Any number of ROUNDs writes ACC only. -/
theorem State.times_doRound (n : Nat) (s : State) :
    times State.doRound n s = { s with acc := roundsFn n s.acc s.poly } := by
  induction n with
  | zero => rfl
  | succ n ih => rw [times_succ_outer, ih, roundsFn_succ]; rfl

theorem State.doByte_eq (i : ByteIndex) (s : State) :
    s.doByte i = { s with acc := byteFn s.acc (s.memRead i) s.poly } := by
  rw [State.doByte, State.times_doRound]; rfl

/-- A micro-operation writes ACC only. -/
theorem State.doMicroOp_eq (m : MicroOp) (s : State) : s.doMicroOp m = { s with acc := (s.doMicroOp m).acc } := by
  cases m <;> rfl

theorem State.doAccept_eq (d0 d1 p : Byte) (s : State) :
    s.doAccept d0 d1 p = { s with d0 := d0, d1 := d1, poly := p, acc := 0xFF#8, step := 1 } := rfl

/-- What RESET leaves: all but the three unspecified registers. -/
theorem State.doReset_fields (s : State) :
    s.doReset.step = 0 ∧ s.doReset.acc = 0xFF#8 ∧ s.doReset.ports = s.ports ∧ s.doReset.agenda = s.agenda :=
  ⟨rfl, rfl, rfl, rfl⟩

theorem nextStep_val_of_running {n : StepNo} (h : 1 ≤ n.val ∧ n.val ≤ 18) : (nextStep n).val = n.val + 1 := by
  simp [nextStep, h]

/-- ADVANCE writes ACC and STEP only (R56). -/
theorem State.doAdvance_eq (s : State) :
    s.doAdvance = { s with acc := s.doAdvance.acc, step := nextStep s.step } := by
  rw [State.doAdvance, State.doMicroOp_eq]; rfl

@[simp] theorem State.doAdvance_step (s : State) : s.doAdvance.step = nextStep s.step := rfl
@[simp] theorem State.doAdvance_d0 (s : State) : s.doAdvance.d0 = s.d0 := by rw [State.doAdvance_eq]
@[simp] theorem State.doAdvance_d1 (s : State) : s.doAdvance.d1 = s.d1 := by rw [State.doAdvance_eq]
@[simp] theorem State.doAdvance_poly (s : State) : s.doAdvance.poly = s.poly := by rw [State.doAdvance_eq]
@[simp] theorem State.doAdvance_ports (s : State) : s.doAdvance.ports = s.ports := by rw [State.doAdvance_eq]
@[simp] theorem State.doAdvance_agenda (s : State) : s.doAdvance.agenda = s.agenda := by rw [State.doAdvance_eq]
@[simp] theorem State.doAdvance_draws (s : State) : s.doAdvance.draws = s.draws := by rw [State.doAdvance_eq]

/-- The three cases of the micro-program in RUN: STEP = 1 and STEP = 10 are the XORBs, every other value is a ROUND (R32). -/
theorem microProgram_running {n : StepNo} (h : 1 ≤ n.val ∧ n.val ≤ 18) :
    (n = 1 ∧ microProgram n = .xorb 0) ∨ (n = 10 ∧ microProgram n = .xorb 1) ∨
      (n ≠ 1 ∧ n ≠ 10 ∧ ∃ b k, microProgram n = .round b k) := by
  revert h; revert n; decide

/-- What an ADVANCE in RUN leaves in ACC (R56). -/
theorem State.doAdvance_acc {s : State} (h : 1 ≤ s.step.val ∧ s.step.val ≤ 18) :
    s.doAdvance.acc =
      if s.step = 1 then s.acc ^^^ s.d0 else if s.step = 10 then s.acc ^^^ s.d1 else roundFn s.acc s.poly := by
  obtain ⟨hn, hm⟩ | ⟨hn, hm⟩ | ⟨h1, h10, b, k, hm⟩ := microProgram_running h
  · rw [State.doAdvance, hm]; simp [State.doMicroOp, State.doXorb, hn]
  · rw [State.doAdvance, hm]; simp [State.doMicroOp, State.doXorb, hn]
  · simp [State.doAdvance, hm, h1, h10, State.doMicroOp, State.doRound]

/-- At 0 and 19 an ADVANCE, which the sequencer never fetches there, changes nothing. -/
theorem State.doAdvance_of_ready {s : State} (h : s.ready = true) : s.doAdvance = s := by
  rcases s with ⟨a, b, c, p, n, i, l, k⟩
  have h' : n = 0 ∨ n = 19 := by
    simp only [State.ready, Bool.or_eq_true, beq_iff_eq] at h
    exact h.imp (fun e => Fin.ext e) (fun e => Fin.ext e)
  rcases h' with rfl | rfl <;> rfl

/-- The engine is in RUN exactly when it is not ready (R16). -/
theorem State.ready_eq_not_busy (s : State) : s.ready = !s.busy := by
  have h : ∀ n : StepNo, (n.val == 0 || n.val == 19) = !(decide (1 ≤ n.val) && decide (n.val ≤ 18)) := by decide
  exact h s.step

theorem State.running_of_not_ready {s : State} (h : s.ready = false) : 1 ≤ s.step.val ∧ s.step.val ≤ 18 := by
  rw [State.ready_eq_not_busy] at h
  simpa [State.busy] using h

theorem State.not_ready_of_running {s : State} (h : 1 ≤ s.step.val ∧ s.step.val ≤ 18) : s.ready = false := by
  rw [State.ready_eq_not_busy]
  simp [State.busy, h]

@[simp] theorem andThen_next (s : State) (f : State → Host.Outcome State Fault Refusal) :
    andThen (.next s) f = f s := rfl

end Sys2Proof.Machine
end

