-- ==== Sys2Proof/Laws/PerInstr.lean ====
section
/-! SUPPORT. The per-instruction family `WordsIssued`: how many words an instruction has, and that it is well-formed exactly
when its words issue the instruction itself. It is about the instruction as syntax only. -/

namespace Sys2Proof.Laws.WordsIssued

/-- An instruction has one word for each instruction its words issue, and is well-formed exactly when they issue just itself
(R38, R39, R46). -/
def Statement (i : Instr) : Prop :=
  (encode i).length = i.issued.length ∧ (i.wellFormed = true ↔ i.issued = [i])

theorem crc8 (d0 d1 p : Byte) : Statement (.crc8 d0 d1 p) := ⟨rfl, by simp [Instr.wellFormed, Instr.issued]⟩

theorem rsp8 (c : Byte) : Statement (.rsp8 c) := ⟨rfl, by simp [Instr.wellFormed, Instr.issued]⟩

theorem idle : Statement (.idle) := ⟨rfl, by decide⟩

theorem xorb0 : Statement (.xorb0) := ⟨rfl, by decide⟩

theorem round (b : ByteIndex) (k : Fin 8) : Statement (.round b k) := ⟨rfl, by simp [Instr.wellFormed, Instr.issued]⟩

theorem xorb1 : Statement (.xorb1) := ⟨rfl, by decide⟩

theorem out : Statement (.out) := ⟨rfl, by decide⟩

theorem init : Statement (.init) := ⟨rfl, by decide⟩

theorem byte (i : ByteIndex) : Statement (.byte i) := by
  fin_cases i <;> exact ⟨rfl, by decide⟩

theorem reset : Statement (.reset) := ⟨rfl, by decide⟩

theorem accept : Statement (.accept) := ⟨rfl, by decide⟩

theorem hold : Statement (.hold) := ⟨rfl, by decide⟩

theorem advance : Statement (.advance) := ⟨rfl, by decide⟩

theorem ignore : Statement (.ignore) := ⟨rfl, by decide⟩

end Sys2Proof.Laws.WordsIssued
end

