-- ==== Sys2Proof/Laws/Step.lean ====
section
/-! SUPPORT. What a step of the machine can do, said once (42_sequencer.md section 1), and the laws of runs. -/

namespace Sys2Proof.Machine

/-- The transition by the inputs and `ready` (R34). -/
theorem State.transition_eq (s : State) :
    s.transition =
      if s.ports.rst then .reset
      else if s.ready then (if s.ports.start then .accept else .hold)
      else if s.ports.start then .ignore else .advance := by
  unfold State.transition State.controlWord
  cases s.ports.rst <;> cases s.ports.start <;> cases s.ready <;> rfl

/-- The registers after a step, before the host's move. -/
def afterTransition (s : State) : State :=
  if s.ports.rst then s.doReset
  else if s.ready then (if s.ports.start then s.doAccept s.ports.data0 s.ports.data1 s.ports.poly else s)
  else s.doAdvance

/-- A step always answers a next state, and this one. -/
theorem step_eq (s : State) : step s = .next (afterTransition s).hostMove := by
  unfold step afterTransition
  rw [State.transition_eq]
  split
  · rfl
  · split
    · split <;> rfl
    · split <;> rfl

/-- The four things a step can do: RESET, ACCEPT, ADVANCE (an IGNORE among them) or HOLD. -/
theorem step_cases {s t : State} (h : step s = .next t) :
    (s.ports.rst = true ∧ t = s.doReset.hostMove) ∨
    (s.ports.rst = false ∧ s.ready = true ∧ s.ports.start = true ∧
      t = (s.doAccept s.ports.data0 s.ports.data1 s.ports.poly).hostMove) ∨
    (s.ports.rst = false ∧ (1 ≤ s.step.val ∧ s.step.val ≤ 18) ∧ t = s.doAdvance.hostMove) ∨
    (s.ports.rst = false ∧ s.ready = true ∧ s.ports.start = false ∧ t = s.hostMove) := by
  rw [step_eq] at h
  cases h
  unfold afterTransition
  cases hr : s.ports.rst with
  | true => simp
  | false =>
    cases hy : s.ready with
    | true => cases hs : s.ports.start <;> simp
    | false => simp [State.running_of_not_ready hy]

@[simp] theorem run_zero (s : State) : run 0 s = .next s := rfl

/-- One step first, then the rest. -/
theorem run_succ (n : Nat) (s : State) : run (n + 1) s = run n (afterTransition s).hostMove := by
  have h : Sys2Proof.core.step s = .next (afterTransition s).hostMove := step_eq s
  simp only [run, Host.Core.run, h]
  rfl

/-- A run of any length answers a next state. -/
theorem run_eq (n : Nat) (s : State) : run n s = .next (times (fun t => (afterTransition t).hostMove) n s) := by
  induction n generalizing s with
  | zero => rfl
  | succ n ih => rw [run_succ, ih, times_succ]

/-- The last step of a run stands outermost. -/
theorem run_succ_outer {n : Nat} {s t : State} (h : run n s = .next t) :
    run (n + 1) s = .next (afterTransition t).hostMove := by
  rw [run_eq] at h ⊢
  cases h
  rw [times_succ_outer]

/-- What every step keeps, every run keeps. -/
theorem run_invariant {P : State → Prop} (h : ∀ s t, P s → step s = .next t → P t) {n : Nat} {s t : State} (hs : P s)
    (hr : run n s = .next t) : P t := by
  rw [run_eq] at hr
  cases hr
  exact times_invariant (fun x hx => h x _ hx (step_eq x)) n hs

end Sys2Proof.Machine
end

