-- ==== Sys2Proof/Laws/Transaction.lean ====
section
/-! SUPPORT. What the shared operations of a transaction do: an ADVANCE does not look at what the host drives, and the state
after an ACCEPT and any number of ADVANCEs. -/

namespace Sys2Proof.Machine

/-- ADVANCE neither reads nor writes the ports and the agenda (R56). -/
theorem State.doAdvance_host (s : State) (q : Ports) (l : List Ports) :
    ({ s with ports := q, agenda := l } : State).doAdvance = { s.doAdvance with ports := q, agenda := l } := by
  unfold State.doAdvance
  cases microProgram s.step <;>
    simp [State.doMicroOp, State.setStep, State.doXorb, State.doRound, State.setAcc, State.memRead]

/-- One more micro-operation of the algorithm, by STEP = k + 1 (R32, R59 item 3). -/
theorem accAfter_succ {k : Nat} (h : k ≤ 17) (d0 d1 p : Byte) :
    accAfter (k + 1) d0 d1 p =
      if k = 0 then accAfter k d0 d1 p ^^^ d0 else if k = 9 then accAfter k d0 d1 p ^^^ d1
      else roundFn (accAfter k d0 d1 p) p := by
  by_cases h0 : k = 0
  · subst h0; rfl
  by_cases h9 : k = 9
  · subst h9; rfl
  rw [if_neg h0, if_neg h9]
  unfold accAfter
  by_cases hk : k ≤ 9
  · obtain ⟨j, rfl⟩ : ∃ j, k = j + 1 := ⟨k - 1, by omega⟩
    simp [show j + 1 ≤ 9 by omega, show j + 1 < 9 by omega, ← roundsFn_succ]
  · obtain ⟨j, rfl⟩ : ∃ j, k = j + 10 := ⟨k - 10, by omega⟩
    simp [show ¬ j + 10 < 9 by omega, show ¬ j + 10 ≤ 9 by omega, ← roundsFn_succ]

/-- The state after an ACCEPT and `k` ADVANCEs. -/
theorem State.times_doAdvance_doAccept (d0 d1 p : Byte) (s : State) {k : Nat} (hk : k ≤ 18) :
    times State.doAdvance k (s.doAccept d0 d1 p) =
      { s with acc := accAfter k d0 d1 p, d0 := d0, d1 := d1, poly := p, step := ⟨k + 1, by omega⟩ } := by
  induction k with
  | zero => rfl
  | succ k ih =>
    have hrun : 1 ≤ k + 1 ∧ k + 1 ≤ 18 := ⟨by omega, hk⟩
    have hn : nextStep (⟨k + 1, by omega⟩ : StepNo) = ⟨k + 2, by omega⟩ :=
      Fin.ext (nextStep_val_of_running (n := ⟨k + 1, by omega⟩) hrun)
    have h1 : ((⟨k + 1, by omega⟩ : StepNo) = 1) ↔ k = 0 := by rw [Fin.ext_iff]; simp
    have h10 : ((⟨k + 1, by omega⟩ : StepNo) = 10) ↔ k = 9 := by rw [Fin.ext_iff]; simp
    rw [times_succ_outer, ih (by omega), State.doAdvance_eq, State.doAdvance_acc hrun]
    simp only [hn, h1, h10, accAfter_succ (show k ≤ 17 by omega)]

/-- What a whole transaction leaves: STEP = 19, the result in ACC, the operands latched, nothing else changed. -/
theorem State.doTransaction_eq (d0 d1 p : Byte) (s : State) :
    s.doTransaction d0 d1 p =
      { s with acc := crc8Fn d0 d1 p, d0 := d0, d1 := d1, poly := p, step := 19 } := by
  rw [State.doTransaction, Config.microOpsPerRun, State.times_doAdvance_doAccept _ _ _ _ (le_refl 18), crc8Fn_eq]
  rfl

end Sys2Proof.Machine
end

