-- ==== Sys2Proof/Tests/Slice0.lean ====
section
/-! SUPPORT. The model's own tests: ill-formed terms, words written out from 30_encoding.md, single operations and steps with
the values of 95_test_vectors.md, and for each statement with hypotheses a state that meets them. -/

namespace Sys2Proof.Tests

open Sys2Proof.Machine

/-- An engine with STEP = n and the given registers, under a quiet host. -/
def engine (n : StepNo) (acc d0 d1 p : Byte) : State :=
  { acc := acc, d0 := d0, d1 := d1, poly := p, step := n, ports := Ports.quiet, agenda := [], draws := 0 }

/-- The same engine under a host that drives `q` now. -/
def drivenBy (q : Ports) (s : State) : State := { s with ports := q }

/-- Ports with rst and start as given and the request of 95_test_vectors.md section 2.7 row IGNORE on the operands. -/
def driving (rst start : Bool) : Ports := { rst := rst, start := start, data0 := 0x12, data1 := 0x34, poly := 0x07 }

/-- A host that asserts start in every one of `n` steps, with other operands. -/
def pestering (n : Nat) : List Ports := List.replicate n (driving false true)

/-! ## Well-formedness: an ill-formed term for each check -/

theorem test_init_has_no_word_of_its_own : Instr.wellFormed .init = false := by decide
theorem test_byte_has_no_word_of_its_own : Instr.wellFormed (.byte 0) = false ∧ Instr.wellFormed (.byte 1) = false := by
  decide
-- 95_test_vectors.md section 2.6
theorem test_wrong_lengths_are_ill_formed :
    dataWellFormed [] = false ∧ dataWellFormed [0xBE] = false ∧ dataWellFormed [0xBE, 0xEF, 0x92] = false ∧
      dataWellFormed [0xBE, 0xEF] = true := by decide

/-! ## Words written out from the encodings of 30_encoding.md -/

-- R31: pppppppp aaaaaaaa bbbbbbbb with 31, BE, EF
theorem test_decode_crc8 :
    decode (.req24 0b001100011011111011101111#24) = .ok (.crc8 0xBE#8 0xEF#8 0x31#8) := by decide
-- R33: bit 7 of the result in bit 7
theorem test_decode_rsp8 : decode (.rsp8 0b10010010#8) = .ok (.rsp8 0x92#8) := by decide
-- R32: the first and last row of every kind
theorem test_decode_idle : decode (.step5 0b00000#5) = .ok .idle := by decide
theorem test_decode_xorb0 : decode (.step5 0b00001#5) = .ok .xorb0 := by decide
theorem test_decode_round_byte0 :
    decode (.step5 0b00010#5) = .ok (.round 0 0) ∧ decode (.step5 0b01001#5) = .ok (.round 0 7) := by decide
theorem test_decode_xorb1 : decode (.step5 0b01010#5) = .ok .xorb1 := by decide
theorem test_decode_round_byte1 :
    decode (.step5 0b01011#5) = .ok (.round 1 0) ∧ decode (.step5 0b10010#5) = .ok (.round 1 7) := by decide
theorem test_decode_out : decode (.step5 0b10011#5) = .ok .out := by decide
theorem test_decode_reserved_steps :
    decode (.step5 0b10100#5) = .error (.reservedStep 20#5) ∧ decode (.step5 0b11111#5) = .error (.reservedStep 31#5) := by
  decide
-- R34: 1sy, 011, 001, 000, 010
theorem test_decode_reset :
    decode (.ctl3 0b100#3) = .ok .reset ∧ decode (.ctl3 0b101#3) = .ok .reset ∧
      decode (.ctl3 0b110#3) = .ok .reset ∧ decode (.ctl3 0b111#3) = .ok .reset := by decide
theorem test_decode_accept : decode (.ctl3 0b011#3) = .ok .accept := by decide
theorem test_decode_hold : decode (.ctl3 0b001#3) = .ok .hold := by decide
theorem test_decode_advance : decode (.ctl3 0b000#3) = .ok .advance := by decide
theorem test_decode_ignore : decode (.ctl3 0b010#3) = .ok .ignore := by decide
-- R39: INIT is part of ACCEPT; R46: BYTE 1 is the nine STEP values 10 to 18, an XORB and eight ROUNDs
theorem test_init_word_is_accept : decodeAll (encode .init) = .ok [.accept] := by decide
theorem test_byte_words_are_its_expansion :
    decodeAll (encode (.byte 1)) = .ok [.xorb1, .round 1 0, .round 1 1, .round 1 2, .round 1 3, .round 1 4, .round 1 5,
      .round 1 6, .round 1 7] := by decide
theorem test_table_words :
    decodeTableWord 24 0x31BEEF = some (.crc8 0xBE 0xEF 0x31) ∧ decodeTableWord 8 1 = some .xorb0 ∧
      decodeTableWord 8 20 = none ∧ decodeTableWord 3 3 = some .accept := by decide

/-! ## Operations, with the values of 95_test_vectors.md section 2 -/

/-- The accumulator an instruction leaves. -/
def accOf : Host.Outcome State Fault Refusal → Option Byte
  | .next s => some s.acc
  | .fault _ => none
  | .refused _ => none

theorem test_init : accOf (exec .init (engine 0 0x92 0 0 0)) = some 0xFF := by decide
theorem test_xorb0 : accOf (exec .xorb0 (engine 1 0xFF 0xBE 0xEF 0x31)) = some 0x41 := by decide
theorem test_xorb1 : accOf (exec .xorb1 (engine 10 0x0C 0xBE 0xEF 0x31)) = some 0xE3 := by decide
theorem test_round_reduces : accOf (exec (.round 0 1) (engine 3 0x82 0 0 0x31)) = some 0x35 := by decide
theorem test_round_rotates_for_poly_one : accOf (exec (.round 0 0) (engine 2 0x81 0 0 0x01)) = some 0x03 := by decide
theorem test_byte0 : accOf (exec (.byte 0) (engine 1 0xFF 0xBE 0xEF 0x31)) = some 0x0C := by decide
theorem test_byte1 : accOf (exec (.byte 1) (engine 10 0x0C 0xBE 0xEF 0x31)) = some 0x92 := by decide
theorem test_crc8 : accOf (exec (.crc8 0x12 0x34 0x07) (engine 19 0x92 0xBE 0xEF 0x31)) = some 0x26 := by decide
theorem test_crc8_swapped_bytes : accOf (exec (.crc8 0xEF 0xBE 0x31) State.reset) = some 0xCE := by decide
theorem test_out : exec .out (engine 19 0x92 0xBE 0xEF 0x31) = .next (engine 19 0x92 0xBE 0xEF 0x31) ∧
    (engine 19 0x92 0xBE 0xEF 0x31).crc = 0x92 := ⟨rfl, by decide⟩
theorem test_rsp8 : exec (.rsp8 0x92) (engine 19 0x92 0xBE 0xEF 0x31) = .next (engine 19 0x92 0xBE 0xEF 0x31) ∧
    (engine 19 0x92 0xBE 0xEF 0x31).response = some 0x92#8 := ⟨rfl, by decide⟩
theorem test_idle : exec .idle State.reset = .next State.reset := rfl
theorem test_unchecked_prefix_is_rejected :
    callChecked [0xBE, 0xEF, 0x92] 0x31 State.reset = .fault (.invalidInputLength 3) := rfl
theorem test_clock_cycle_of_nine :
    (State.clockCycle 9 (engine 1 0xFF 0xBE 0xEF 0x31)).step = 10 ∧
      (State.clockCycle 9 (engine 1 0xFF 0xBE 0xEF 0x31)).acc = 0x0C := by decide

/-! ## One step, the rows of 95_test_vectors.md section 2.7 -/

/-- STEP, ACC, D[0], D[1], POLY after a step. -/
def regsOf : Host.Outcome State Fault Refusal → Option (StepNo × Byte × Byte × Byte × Byte)
  | .next s => some (s.step, s.acc, s.d0, s.d1, s.poly)
  | .fault _ => none
  | .refused _ => none

/-- STEP and ACC after a step, and the outputs. -/
def shownOf : Host.Outcome State Fault Refusal → Option (StepNo × Byte × Outputs)
  | .next s => some (s.step, s.acc, s.outputs)
  | .fault _ => none
  | .refused _ => none

theorem test_step_hold_idle : step State.reset = .next State.reset := rfl
theorem test_step_hold_done :
    shownOf (step (engine 19 0x92 0xBE 0xEF 0x31)) = some (19, 0x92, ⟨true, false, true, 0x92⟩) := by decide
theorem test_step_accept :
    regsOf (step (drivenBy (Ports.request 0xBE 0xEF 0x31) State.reset)) = some (1, 0xFF, 0xBE, 0xEF, 0x31) := by decide
theorem test_step_accept_from_done :
    regsOf (step (drivenBy (Ports.request 0x00 0x00 0x31) (engine 19 0x92 0xBE 0xEF 0x31))) =
      some (1, 0xFF, 0x00, 0x00, 0x31) := by decide
theorem test_step_advance_xorb1 :
    regsOf (step (engine 10 0x0C 0xBE 0xEF 0x31)) = some (11, 0xE3, 0xBE, 0xEF, 0x31) := by decide
theorem test_step_advance_last_round :
    shownOf (step (engine 18 0x49 0xBE 0xEF 0x31)) = some (19, 0x92, ⟨true, false, true, 0x92⟩) := by decide
theorem test_step_ignore :
    regsOf (step (drivenBy (driving false true) (engine 5 0x6A 0xBE 0xEF 0x31))) = some (6, 0xD4, 0xBE, 0xEF, 0x31) := by
  decide
theorem test_step_reset_in_run :
    shownOf (step (drivenBy (driving true false) (engine 7 0x99 0xBE 0xEF 0x31))) =
      some (0, 0xFF, ⟨true, false, false, 0x00⟩) := by decide
theorem test_step_reset_wins_over_start :
    shownOf (step (drivenBy (driving true true) (engine 19 0x92 0xBE 0xEF 0x31))) =
      some (0, 0xFF, ⟨true, false, false, 0x00⟩) := by decide

/-! ## A state that meets the hypotheses of each statement -/

/-- A ready engine in DONE under a request, with a host that goes on asserting start. -/
def requestingEngine : State :=
  { engine 19 0x92 0xBE 0xEF 0x31 with ports := Ports.request 0x12 0x34 0x07, agenda := pestering 18 }

theorem test_witness_OutDrivesResult : (engine 19 0x92 0 0 0).step.val = 19 := by decide
theorem test_witness_Crc8RunsWholeTransaction : State.reset.ready = true ∧ (engine 19 0x92 0 0 0).ready = true := by decide
theorem test_witness_Crc8WhileBusyIsLost : (engine 1 0xFF 0 0 0).busy = true ∧ (engine 18 0x49 0 0 0).busy = true := by
  decide
theorem test_witness_PseudoOperationsAreTheirExpansions : requestingEngine.ready = true := by decide
theorem test_witness_AcceptLatchesOperands : requestingEngine.requesting ∧ requestingEngine.transition = .accept := by decide
theorem test_witness_AdvancePerformsMicroOperation :
    (∀ n ∈ [1, 2, 9, 10, 11, 18], 1 ≤ (engine n 0xFF 0 0 0).step.val ∧ (engine n 0xFF 0 0 0).step.val ≤ 18) ∧
      (engine 1 0xFF 0 0 0).ports.rst = false ∧ (engine 1 0xFF 0 0 0).ports.start = false := by decide
theorem test_witness_HoldChangesNothing :
    (∃ t, step requestingEngine = .next t ∧ requestingEngine.step.val = 19) ∧
      (∃ t, step State.reset = .next t ∧ t.step.val = 0) := ⟨⟨_, rfl, rfl⟩, ⟨_, rfl, rfl⟩⟩
theorem test_witness_IgnoreDropsRequest :
    (engine 18 0x49 0 0 0).busy = true ∧ (driving false true).rst = false ∧
      (drivenBy (driving false true) (engine 1 0xFF 0 0 0)).transition = .ignore := by decide
theorem test_witness_ResetEntersIdle :
    (drivenBy (driving true true) (engine 7 0x99 0 0 0)).ports.rst = true ∧
      (∃ t, step { engine 7 0x99 0 0 0 with ports := driving true true, agenda := [driving true false] } = .next t ∧
        t.ports.rst = true) ∧
      (∃ t, step (drivenBy (driving true true) (engine 7 0x99 0 0 0)) = .next t ∧ t.ports.rst = false) :=
  ⟨rfl, ⟨_, rfl, rfl⟩, ⟨_, rfl, rfl⟩⟩

/-- A request to an idle engine and a reset in the k-th step after it. -/
def abandoned (k : Nat) : State :=
  { State.reset with ports := Ports.request 0xBE 0xEF 0x31, agenda := pestering k ++ [driving true true] }

theorem test_witness_ResetAbandonsTransaction_first :
    (abandoned 0).requesting ∧ (abandoned 0).noReset 0 ∧ ∃ t, run 1 (abandoned 0) = .next t ∧ t.ports.rst = true :=
  ⟨by decide, by decide, _, rfl, rfl⟩
theorem test_witness_ResetAbandonsTransaction_last :
    (abandoned 17).requesting ∧ (abandoned 17).noReset 17 ∧ ∃ t, run 18 (abandoned 17) = .next t ∧ t.ports.rst = true :=
  ⟨by decide, by decide, _, rfl, rfl⟩
theorem test_witness_ResetAbandonsTransaction_done :
    (drivenBy (driving true false) (engine 19 0x92 0 0 0)).step.val = 19 ∧
      (drivenBy (driving true false) (engine 19 0x92 0 0 0)).ports.rst = true := by decide
theorem test_witness_StepRunsFetchedTransition : decode (.ctl3 requestingEngine.controlWord) = .ok .accept := by decide
theorem test_witness_StepRunsFetchedMicroOperation :
    decode (.step5 (engine 18 0x49 0 0 0).stepWord) = .ok (.round 1 7) ∧ (engine 18 0x49 0 0 0).ports.rst = false ∧
      decode (.step5 (engine 1 0x49 0 0 0).stepWord) = .ok .xorb0 := by decide
theorem test_witness_PlacedTableWordRunsNext : 32 ≤ (32#8).toNat ∧ 32 ≤ (255#8).toNat := by decide
theorem test_witness_OutputsFollowStepAndAcc : (engine 18 0x49 0 0 0).busy = true ∧ requestingEngine.done = true := by decide

/-- A request with the operands FF, 00. -/
def zeroResult : State := { State.reset with ports := Ports.request 0xFF 0x00 0x31, agenda := pestering 18 }

theorem test_witness_PartialResultIsNeverShown :
    (engine 0 0x92 0 0 0).step.val ≤ 18 ∧ (engine 18 0x49 0 0 0).step.val ≤ 18 ∧ zeroResult.requesting ∧
      zeroResult.noReset 18 ∧ zeroResult.ports.data0 = 0xFF#8 ∧ zeroResult.ports.data1 = 0x00#8 := by decide
theorem test_witness_ResetValuesAreUnobservable :
    State.reset.step.val = 0 ∧ (engine 0 0x12 0x34 0x56 0x78).step.val = 0 ∧
      (engine 0 0x12 0x34 0x56 0x78).ports = State.reset.ports ∧
      (engine 0 0x12 0x34 0x56 0x78).agenda = State.reset.agenda := by decide
theorem test_witness_OperandsWrittenOnlyByAccept :
    (∃ t, exec .accept requestingEngine = .next t ∧ t.d0 ≠ requestingEngine.d0) ∧
      (∃ t, exec (.crc8 0 0 0) requestingEngine = .next t ∧ t.poly ≠ requestingEngine.poly) :=
  ⟨⟨_, rfl, by decide⟩, ⟨_, rfl, by decide⟩⟩
theorem test_witness_HostValuesAreLeftAlone : ∃ t, exec .advance (engine 1 0xFF 0xBE 0 0) = .next t := ⟨_, rfl⟩
theorem test_witness_StepCounterRisesByOne :
    (∃ t, step requestingEngine = .next t ∧ t.step.val < requestingEngine.step.val) ∧
      (∃ t, step (engine 18 0x49 0 0 0) = .next t ∧ (engine 18 0x49 0 0 0).ports.rst = false) ∧
      (∃ t, step (engine 1 0xFF 0 0 0) = .next t ∧ (engine 1 0xFF 0 0 0).ports.rst = false) ∧
      (∃ t, step (drivenBy (driving true true) (engine 7 0x99 0 0 0)) = .next t) :=
  ⟨⟨_, rfl, by decide⟩, ⟨_, rfl, rfl⟩, ⟨_, rfl, rfl⟩, ⟨_, rfl⟩⟩
theorem test_witness_StepKeepsCoherence_idle : State.reset.Coherent ∧ ∃ t, step State.reset = .next t :=
  ⟨by decide, _, rfl⟩
-- 95_test_vectors.md program P1, n = 3
theorem test_witness_StepKeepsCoherence_run :
    (engine 3 0x82 0xBE 0xEF 0x31).Coherent ∧ ∃ t, step (engine 3 0x82 0xBE 0xEF 0x31) = .next t :=
  ⟨by decide, _, rfl⟩
theorem test_witness_TransactionComputesCrc8 :
    requestingEngine.requesting ∧ requestingEngine.noReset 18 ∧
      ∃ t, run 19 requestingEngine = .next t ∧ t.ports.rst = false ∧ t.ports.start = false :=
  ⟨by decide, by decide, _, rfl, rfl, rfl⟩
theorem test_witness_StepsOfTransactionAgreeWithCrc8 : requestingEngine.requesting ∧ requestingEngine.noReset 18 := by decide
theorem test_witness_DoneAfterExactlyEighteenSteps : requestingEngine.requesting ∧ requestingEngine.noReset 18 := by decide

/-- Another engine under a request with the same operands, from IDLE and under a quiet host. -/
def otherRequest : State := { State.reset with ports := Ports.request 0x12 0x34 0x07 }

theorem test_witness_ResultDependsOnOperandsOnly :
    requestingEngine.requesting ∧ otherRequest.requesting ∧ requestingEngine.noReset 18 ∧ otherRequest.noReset 18 ∧
      requestingEngine.ports.data0 = otherRequest.ports.data0 ∧ requestingEngine.ports.data1 = otherRequest.ports.data1 ∧
      requestingEngine.ports.poly = otherRequest.ports.poly := by decide
theorem test_witness_ReadyEngineStandsStill :
    (engine 19 0x92 0xBE 0xEF 0x31).ready = true ∧ (engine 19 0x92 0xBE 0xEF 0x31).hostQuiet 5 ∧
      State.reset.ready = true ∧ State.reset.hostQuiet 5 := by decide
/-- Two idle engines that differ in ACC, D[0], D[1] and POLY, both under the request of `otherRequest`. -/
theorem test_witness_StepKeepsIndistinguishability_idle :
    otherRequest.Indistinguishable (drivenBy otherRequest.ports (engine 0 0x92 0xBE 0xEF 0x31)) ∧
      (∃ u, step otherRequest = .next u) ∧
      ∃ v, step (drivenBy otherRequest.ports (engine 0 0x92 0xBE 0xEF 0x31)) = .next v := ⟨by decide, ⟨_, rfl⟩, _, rfl⟩
theorem test_witness_StepKeepsIndistinguishability_run :
    (engine 18 0x49 0xBE 0xEF 0x31).Indistinguishable { engine 18 0x49 0xBE 0xEF 0x31 with draws := 3 } ∧
      (∃ u, step (engine 18 0x49 0xBE 0xEF 0x31) = .next u) ∧
      ∃ v, step { engine 18 0x49 0xBE 0xEF 0x31 with draws := 3 } = .next v := ⟨by decide, ⟨_, rfl⟩, _, rfl⟩
theorem test_witness_SingleBitFlipIsDetected : (0x31#8) ≠ 0x00#8 ∧ (0x01#8) ≠ 0x00#8 := by decide
theorem test_witness_ZeroPolynomialShiftsEverythingOut :
    let s : State := { State.reset with ports := Ports.request 0x12 0x34 0x00, agenda := pestering 18 }
    s.requesting ∧ s.noReset 18 ∧ s.ports.poly = 0x00#8 := by decide
theorem test_witness_OddPolynomialKeepsBytesApart :
    (0x31#8).getLsbD 0 = true ∧ roundFn 0x41 0x31 = roundFn 0x41 0x31 ∧ crc8Fn 0xBE 0xEF 0x31 = crc8Fn 0xBE 0xEF 0x31 ∧
      (0x02#8).getLsbD 0 = false := by decide
theorem test_witness_WrongLengthIsRejected :
    ([] : List Byte).length ≠ 2 ∧ ([0xBE] : List Byte).length ≠ 2 ∧ ([0xBE, 0xEF, 0x92] : List Byte).length ≠ 2 := by
  decide
theorem test_witness_UnrolledCycleIsRunOfSteps : 1 ≤ 1 ∧ 1 ≤ 18 := by decide
theorem test_witness_CyclesPerTransaction :
    requestingEngine.requesting ∧ requestingEngine.noReset ((18 + 1 - 1) / 1) ∧
      requestingEngine.noReset ((18 + 9 - 1) / 9) ∧ requestingEngine.noReset ((18 + 18 - 1) / 18) ∧
      0 < (18 + 18 - 1) / 18 := by decide
theorem test_witness_EnginesShareNothing : [State.reset, requestingEngine][1]? = some requestingEngine := rfl
theorem test_witness_DecodeGivesBackEncoded : Instr.wellFormed (.round 1 7) = true := by decide
theorem test_witness_EncodeGivesBackDecoded :
    decode (.step5 0b10010#5) = .ok (.round 1 7) ∧ Instr.round 1 7 ≠ .reset := by decide
theorem test_witness_MicroProgramIsTheTable :
    1 ≤ (1 : StepNo).val ∧ (18 : StepNo).val ≤ 18 ∧
      ∃ t, requestingEngine.ports.rst = false ∧ step requestingEngine = .next t :=
  ⟨by decide, by decide, _, rfl, rfl⟩

end Sys2Proof.Tests
end

/-! Proofs of the family 10_state.md: the output ports, the transaction under a host that does not reset, and the
unobservable reset values. -/

namespace Sys2Proof.Machine

/-! ## The outputs by STEP (R16) -/

theorem State.done_iff (s : State) : s.done = true ↔ s.step.val = 19 := beq_iff_eq

theorem State.busy_iff (s : State) : s.busy = true ↔ 1 ≤ s.step.val ∧ s.step.val ≤ 18 := by
  simp [State.busy]

theorem State.ready_iff (s : State) : s.ready = true ↔ s.step.val = 0 ∨ s.step.val = 19 := by
  simp [State.ready]

theorem State.crc_of_done {s : State} (h : s.done = true) : s.crc = s.acc := by
  simp [State.crc, h]

theorem State.crc_of_not_done {s : State} (h : s.done = false) : s.crc = 0x00#8 := by
  simp [State.crc, h]

theorem State.response_of_not_done {s : State} (h : s.done = false) : s.response = none := by
  simp [State.response, h]

/-- The phases split the twenty STEP values (R13). -/
theorem phaseOf_iff (n : StepNo) :
    (phaseOf n = .idle ↔ n.val = 0) ∧ (phaseOf n = .run ↔ 1 ≤ n.val ∧ n.val ≤ 18) ∧
      (phaseOf n = .done ↔ n.val = 19) := by
  revert n; decide

/-- The outputs depend on STEP and, in DONE alone, on ACC (R16). -/
theorem State.outputs_congr {s t : State} (hstep : t.step = s.step) (hacc : s.done = true → t.acc = s.acc) :
    s.outputs = t.outputs := by
  have hdone : t.done = s.done := by rw [State.done, hstep]; rfl
  have hcrc : s.crc = t.crc := by
    cases h : s.done with
    | true => rw [State.crc_of_done h, State.crc_of_done (hdone.trans h), hacc h]
    | false => rw [State.crc_of_not_done h, State.crc_of_not_done (hdone.trans h)]
  simp [State.outputs, State.ready, State.busy, hstep, hdone, hcrc]

/-- Settles O22: each output and each phase by its own law; the two implications are arithmetic on STEP. -/
theorem outputsFollowStepAndAcc : Obligations.OutputsFollowStepAndAcc := by
  intro s
  obtain ⟨hidle, hrun, hdone⟩ := phaseOf_iff s.step
  refine ⟨?_, ?_, rfl, ?_, hidle, hrun, hdone, ?_, ?_⟩
  · rw [Bool.eq_iff_iff, State.ready_iff, decide_eq_true_iff]
  · rw [Bool.eq_iff_iff, State.busy_iff, decide_eq_true_iff]
  · split
    next h => rw [State.crc_of_done (s.done_iff.2 h)]; exact (and_outputMask s.acc).symm
    next h => exact State.crc_of_not_done (Bool.eq_false_iff.2 (mt s.done_iff.1 h))
  · intro hbusy
    have hrunning := s.busy_iff.1 hbusy
    exact ⟨State.not_ready_of_running hrunning, Bool.eq_false_iff.2 (mt s.done_iff.1 (by omega))⟩
  · exact fun h => s.ready_iff.2 (.inr (s.done_iff.1 h))

/-! ## One step by the branch it takes (42_sequencer.md section 1) -/

theorem afterTransition_of_reset {s : State} (h : s.ports.rst = true) : afterTransition s = s.doReset := by
  simp [afterTransition, h]

theorem afterTransition_of_requesting {s : State} (h : s.requesting) :
    afterTransition s = s.doAccept s.ports.data0 s.ports.data1 s.ports.poly := by
  obtain ⟨hready, hrst, hstart⟩ := h
  simp [afterTransition, hready, hrst, hstart]

theorem afterTransition_of_running {s : State} (hrst : s.ports.rst = false)
    (hrun : 1 ≤ s.step.val ∧ s.step.val ≤ 18) : afterTransition s = s.doAdvance := by
  simp [afterTransition, hrst, State.not_ready_of_running hrun]

/-- An ADVANCE under any host that does not reset. -/
theorem afterTransition_of_running_driven {s : State} (hrun : 1 ≤ s.step.val ∧ s.step.val ≤ 18) {q : Ports}
    (hq : q.rst = false) (l : List Ports) :
    afterTransition { s with ports := q, agenda := l } = { s.doAdvance with ports := q, agenda := l } :=
  (afterTransition_of_running (s := { s with ports := q, agenda := l }) hq hrun).trans (State.doAdvance_host s q l)

theorem afterTransition_of_waiting {s : State} (hrst : s.ports.rst = false) (hready : s.ready = true)
    (hstart : s.ports.start = false) : afterTransition s = s := by
  simp [afterTransition, hrst, hready, hstart]

/-! ## The transaction under a host that does not reset (R59) -/

/-- A host that asserts no reset in the next `n` steps drives none in step `k + 1`, for `k` below `n`. -/
theorem State.noReset.rst_drop {n : Nat} {s : State} (h : s.noReset n) {k : Nat} (hk : k < n) :
    ((s.agenda.drop k).headD Ports.quiet).rst = false := by
  cases hd : s.agenda.drop k with
  | nil => rfl
  | cons q qs =>
    have hget : s.agenda[k]? = some q := by rw [← List.head?_drop, hd]; rfl
    exact h.2 q (List.mem_of_getElem? ((List.getElem?_take_of_lt hk).trans hget))

/-- Fewer than eighteen ADVANCEs after an ACCEPT leave the engine in RUN (R56). -/
theorem State.running_of_doAccept (d0 d1 p : Byte) (s : State) {k : Nat} (hk : k < 18) :
    1 ≤ (times State.doAdvance k (s.doAccept d0 d1 p)).step.val ∧
      (times State.doAdvance k (s.doAccept d0 d1 p)).step.val ≤ 18 := by
  rw [State.times_doAdvance_doAccept d0 d1 p s hk.le]
  exact ⟨Nat.le_add_left 1 k, hk⟩

/-- From a request, `k + 1` steps without reset are the ACCEPT and `k` ADVANCEs, while the host's agenda moves on. -/
theorem run_of_requesting {s : State} (hreq : s.requesting) {n : Nat} (hnr : s.noReset n) {k : Nat} (hk : k ≤ n)
    (hk18 : k ≤ 18) :
    run (k + 1) s = .next
      { times State.doAdvance k (s.doAccept s.ports.data0 s.ports.data1 s.ports.poly) with
        ports := (s.agenda.drop k).headD Ports.quiet
        agenda := s.agenda.drop (k + 1) } := by
  induction k with
  | zero => rw [run_succ, afterTransition_of_requesting hreq, run_zero, List.drop_zero, List.drop_one]; rfl
  | succ k ih =>
    rw [run_succ_outer (ih (by omega) (by omega)),
      afterTransition_of_running_driven (State.running_of_doAccept _ _ _ s hk18) (hnr.rst_drop hk), times_succ_outer, ← List.tail_drop (i := k + 1)]
    rfl

/-- The same in fields: ACC holds what the algorithm has after `k` micro-operations (R59 item 3). -/
theorem run_of_requesting_fields {s : State} (hreq : s.requesting) {n : Nat} (hnr : s.noReset n) {k : Nat}
    (hk : k ≤ n) (hk18 : k ≤ 18) :
    run (k + 1) s = .next
      { s with
        acc := accAfter k s.ports.data0 s.ports.data1 s.ports.poly
        d0 := s.ports.data0
        d1 := s.ports.data1
        poly := s.ports.poly
        step := ⟨k + 1, by omega⟩
        ports := (s.agenda.drop k).headD Ports.quiet
        agenda := s.agenda.drop (k + 1) } := by
  rw [run_of_requesting hreq hnr hk hk18, State.times_doAdvance_doAccept _ _ _ _ hk18]

/-- The algorithm is complete after the eighteenth micro-operation (R38, R47). -/
theorem accAfter_eighteen (d0 d1 p : Byte) : accAfter 18 d0 d1 p = crc8Fn d0 d1 p := by
  rw [crc8Fn_eq]; rfl

/-- A transaction that no reset cuts short ends in DONE with CRC8 of its operands on the port `crc` (R47, R59). -/
theorem run_transaction_done {s : State} (hreq : s.requesting) (hnr : s.noReset 18) :
    ∃ t, run 19 s = .next t ∧ t.done = true ∧ t.crc = crc8Fn s.ports.data0 s.ports.data1 s.ports.poly :=
  ⟨_, run_of_requesting_fields hreq hnr (le_refl 18) (le_refl 18), rfl,
    (State.crc_of_done rfl).trans (accAfter_eighteen _ _ _)⟩

/-! ## No partial result is shown, and 0x00 is a result (R17) -/

/-- Zero stays zero through any number of ROUNDs (R41). -/
theorem roundsFn_of_zero (n : Nat) (p : Byte) : roundsFn n 0 p = 0 :=
  times_invariant (P := (· = 0)) (fun x hx => by rw [hx, roundFn_zero]) n rfl

theorem crc8Fn_FF_00 (p : Byte) : crc8Fn 0xFF#8 0x00#8 p = 0x00#8 := by
  have hxor : 0xFF#8 ^^^ 0xFF#8 = (0 : Byte) := by decide
  rw [crc8Fn_eq, hxor, roundsFn_of_zero]
  exact roundsFn_of_zero 8 p

/-- Settles O23: `done` is 0 below STEP = 19 and hides ACC; FF cancels the initial value, and zero stays zero. -/
theorem partialResultIsNeverShown : Obligations.PartialResultIsNeverShown := by
  refine ⟨fun s hs => ?_, crc8Fn_FF_00, fun s hreq hnr h0 h1 => ?_⟩
  · have hdone : s.done = false := Bool.eq_false_iff.2 (mt s.done_iff.1 (by omega))
    exact ⟨hdone, State.crc_of_not_done hdone, State.response_of_not_done hdone⟩
  · obtain ⟨t, hrun, hdone, hcrc⟩ := run_transaction_done hreq hnr
    exact ⟨t, hrun, hdone, by rw [hcrc, h0, h1, crc8Fn_FF_00]⟩

/-! ## Indistinguishable states stay so, and show the same outputs (R18) -/

/-- What one application keeps between two values, the iteration keeps. -/
theorem times_related {α : Type} {R : α → α → Prop} {f : α → α} (h : ∀ x y, R x y → R (f x) (f y)) (n : Nat)
    {x y : α} (hxy : R x y) : R (times f n x) (times f n y) := by
  induction n generalizing x y with
  | zero => exact hxy
  | succ n ih => exact ih (h x y hxy)

theorem State.Indistinguishable.outputs_eq {s t : State} (h : s.Indistinguishable t) : s.outputs = t.outputs := by
  obtain ⟨-, -, hstep, hregs⟩ := h
  refine State.outputs_congr hstep fun hdone => (hregs fun h0 => ?_).1
  have h19 := s.done_iff.1 hdone
  simp [h0] at h19

/-- The host's move is the same in both states. -/
theorem State.Indistinguishable.hostMove {s t : State} (h : s.Indistinguishable t) :
    s.hostMove.Indistinguishable t.hostMove := by
  obtain ⟨-, hagenda, hstep, hregs⟩ := h
  exact ⟨by simp [hagenda], by simp [hagenda], hstep, hregs⟩

/-- In RUN the two states agree on all that an ADVANCE reads. -/
theorem State.Indistinguishable.doAdvance {s t : State} (h : s.Indistinguishable t)
    (hrun : 1 ≤ s.step.val ∧ s.step.val ≤ 18) : s.doAdvance.Indistinguishable t.doAdvance := by
  obtain ⟨hports, hagenda, hstep, hregs⟩ := h
  obtain ⟨hacc, hd0, hd1, hpoly⟩ := hregs fun h0 => by simp [h0] at hrun
  have hrun' : 1 ≤ t.step.val ∧ t.step.val ≤ 18 := by rwa [hstep]
  refine ⟨by simpa, by simpa, by simp [hstep], fun _ => ⟨?_, by simpa, by simpa, by simpa⟩⟩
  rw [State.doAdvance_acc hrun, State.doAdvance_acc hrun', hstep, hacc, hd0, hd1, hpoly]

/-- RESET forgets STEP and ACC, ACCEPT latches the same operands, ADVANCE reads registers that agree, HOLD writes nothing. -/
theorem State.Indistinguishable.afterTransition {s t : State} (h : s.Indistinguishable t) :
    (afterTransition s).Indistinguishable (afterTransition t) := by
  have ⟨hports, hagenda, hstep, _⟩ := h
  have hready : t.ready = s.ready := by rw [State.ready, hstep]; rfl
  cases hrst : s.ports.rst with
  | true =>
    rw [afterTransition_of_reset hrst, afterTransition_of_reset (hports ▸ hrst)]
    exact ⟨hports, hagenda, rfl, fun h0 => absurd rfl h0⟩
  | false =>
    cases hy : s.ready with
    | false =>
      have hrun := State.running_of_not_ready hy
      rw [afterTransition_of_running hrst hrun, afterTransition_of_running (hports ▸ hrst) (hstep ▸ hrun)]
      exact h.doAdvance hrun
    | true =>
      cases hstart : s.ports.start with
      | true =>
        rw [afterTransition_of_requesting ⟨hy, hrst, hstart⟩,
          afterTransition_of_requesting ⟨hready.trans hy, hports ▸ hrst, hports ▸ hstart⟩, hports]
        exact ⟨hports, hagenda, rfl, fun _ => ⟨rfl, rfl, rfl, rfl⟩⟩
      | false =>
        rw [afterTransition_of_waiting hrst hy hstart,
          afterTransition_of_waiting (hports ▸ hrst) (hready.trans hy) (hports ▸ hstart)]
        exact h

/-- Runs of the same length from indistinguishable states end in indistinguishable states. -/
theorem State.Indistinguishable.run {s t : State} (h : s.Indistinguishable t) (n : Nat) :
    ∃ u v, run n s = .next u ∧ run n t = .next v ∧ u.Indistinguishable v :=
  ⟨_, _, run_eq n s, run_eq n t, times_related (fun _ _ hxy => hxy.afterTransition.hostMove) n h⟩

/-- In IDLE the same host is all that two states need to be indistinguishable (R18). -/
theorem State.indistinguishable_of_idle {s t : State} (hs : s.step.val = 0) (ht : t.step.val = 0)
    (hports : t.ports = s.ports) (hagenda : t.agenda = s.agenda) : s.Indistinguishable t :=
  ⟨hports, hagenda, Fin.ext (ht.trans hs.symm), fun h0 => absurd (Fin.ext hs) h0⟩

/-- Settles O24: idle states under one host are indistinguishable, and stay so through every run. -/
theorem resetValuesAreUnobservable : Obligations.ResetValuesAreUnobservable := by
  refine ⟨rfl, rfl, rfl, fun n s t hs ht hports hagenda => ?_⟩
  obtain ⟨u, v, hu, hv, huv⟩ := (State.indistinguishable_of_idle hs ht hports hagenda).run n
  exact ⟨u, v, hu, hv, huv.outputs_eq⟩

end Sys2Proof.Machine

/-! Proofs of the family 30_encoding.md: the request word, the hardwired micro-program, the control word, the row IDLE and
the response. -/

namespace Sys2Proof

/-! ## The request word (R31) -/

/-- The three byte fields of a REQ24 word are its operands. -/
theorem decodeReq24_append (d0 d1 p : Byte) : decodeReq24 (p ++ d0 ++ d1) = .crc8 d0 d1 p := by
  have hd0 : (p ++ d0 ++ d1).extractLsb' 8 8 = d0 := by
    rw [BitVec.extractLsb'_append_eq_of_le (le_refl 8), BitVec.extractLsb'_append_eq_right]
  have hd1 : (p ++ d0 ++ d1).extractLsb' 0 8 = d1 := BitVec.extractLsb'_append_eq_right
  have hp : (p ++ d0 ++ d1).extractLsb' 16 8 = p := by
    rw [BitVec.extractLsb'_append_eq_of_le (by decide), BitVec.extractLsb'_append_eq_left]
  rw [decodeReq24, hd0, hd1, hp]

/-- Settles O49: the fields of the concatenation, which is also how the ports are read as one word. -/
theorem requestWordHoldsOperands : Obligations.RequestWordHoldsOperands := by
  have hfields : ∀ d0 d1 p : Byte, decode (.req24 (p ++ d0 ++ d1)) = .ok (.crc8 d0 d1 p) := fun d0 d1 p =>
    congrArg Except.ok (decodeReq24_append d0 d1 p)
  exact ⟨hfields, fun _ => rfl, fun i => hfields i.data0 i.data1 i.poly, hfields 0xBE#8 0xEF#8 0x31#8⟩

/-! ## The micro-program by group and position (R32) -/

/-- In RUN the group index needs no wrapping: (s - 1) div 9 is 0 or 1. -/
theorem stepGroup_val {n : StepNo} (h : n.val ≤ 18) : (stepGroup n).val = (n.val - 1) / 9 :=
  Nat.mod_eq_of_lt (by omega)

theorem stepPosition_lt (n : StepNo) : stepPosition n < 9 := Nat.mod_lt _ (by decide)

/-- Position 0 of a group is its XORB. -/
theorem microProgram_of_position_zero {n : StepNo} (h : 1 ≤ n.val ∧ n.val ≤ 18) (hpos : stepPosition n = 0) :
    microProgram n = .xorb (stepGroup n) := by
  rw [microProgram, if_neg (by omega), if_neg (by omega), if_pos hpos]

/-- Position `k + 1` of a group is its ROUND number `k`. -/
theorem microProgram_of_position_succ {n : StepNo} (h : 1 ≤ n.val ∧ n.val ≤ 18) {k : Fin 8}
    (hpos : stepPosition n = k.val + 1) : microProgram n = .round (stepGroup n) k := by
  rw [microProgram, if_neg (by omega), if_neg (by omega), if_neg (by omega), hpos]
  simp

namespace Machine

/-- The column 'Next STEP' of the table: a step without reset leaves 0 and 19 only by an ACCEPT, and counts in RUN. -/
theorem step_val_of_no_reset {s t : State} (hrst : s.ports.rst = false) (h : step s = .next t) :
    t.step.val = if s.step.val = 0 ∨ s.step.val = 19 then (if s.ports.start then 1 else s.step.val)
      else s.step.val + 1 := by
  obtain ⟨hrst', -⟩ | ⟨-, hready, hstart, rfl⟩ | ⟨-, hrun, rfl⟩ | ⟨-, hready, hstart, rfl⟩ := step_cases h
  · exact absurd (hrst'.symm.trans hrst) (by decide)
  · rw [if_pos (s.ready_iff.1 hready), if_pos hstart]; rfl
  · rw [if_neg (by omega)]; exact nextStep_val_of_running hrun
  · rw [if_pos (s.ready_iff.1 hready), hstart]; rfl

/-- Settles O50: the rows and phases are the twenty values; in RUN the position is 0 or one more than a round number. -/
theorem microProgramIsTheTable : Obligations.MicroProgramIsTheTable := by
  refine ⟨by decide, by decide, fun n h1 h18 => ?_, fun s t => step_val_of_no_reset⟩
  have hgroup := stepGroup_val h18
  cases hpos : stepPosition n with
  | zero => exact .inl ⟨hpos, stepGroup n, hgroup, microProgram_of_position_zero ⟨h1, h18⟩ hpos⟩
  | succ k =>
    have hk : k < 8 := by have := stepPosition_lt n; omega
    exact .inr ⟨stepGroup n, ⟨k, hk⟩, hgroup, hpos.symm, microProgram_of_position_succ ⟨h1, h18⟩ hpos⟩

/-! ## The control word (R34) -/

/-- Settles O18: the transition by rst, start and `ready`, with `ready` read off STEP. -/
theorem controlWordSelectsTransition : Obligations.ControlWordSelectsTransition := by
  refine ⟨fun s => ?_, by decide⟩
  rw [State.transition_eq]
  simp only [State.ready_iff]
  cases s.ports.start <;> simp

/-! ## The row IDLE and the response (R32 row 0, R33) -/

/-- Settles O6: the meaning of the row is the state itself. -/
theorem idlePerformsNothing : Obligations.IdlePerformsNothing := fun _ => rfl

theorem State.response_of_done {s : State} (h : s.done = true) : s.response = some s.acc := by
  simp [State.response, h, State.crc_of_done h]

/-- Settles O7: in DONE the response is ACC, elsewhere there is none. -/
theorem responseIsQualifiedByDone : Obligations.ResponseIsQualifiedByDone := by
  refine ⟨fun _ _ => rfl, fun s => ?_⟩
  split
  next h => exact State.response_of_done (s.done_iff.2 h)
  next h => exact State.response_of_not_done (Bool.eq_false_iff.2 (mt s.done_iff.1 h))

end Machine

end Sys2Proof

/-! Proofs of the family 40_microops.md: INIT, XORB, ROUND and OUT, the round bit by bit, and the wider accumulator. -/

namespace Sys2Proof

/-- An operation that carries `f` over to `g` carries the iteration of `f` over to that of `g`. -/
theorem times_semiconj {α β : Type} {h : α → β} {f : α → α} {g : β → β} (H : Function.Semiconj h f g) (n : Nat) :
    Function.Semiconj h (times f n) (times g n) := by
  intro x
  induction n generalizing x with
  | zero => rfl
  | succ n ih => rw [times_succ, times_succ, ih, H x]

namespace Machine

/-! ## ROUND as integer arithmetic and bit by bit (R41, R42) -/

/-- What ROUND leaves: ACC by the round function, and nothing else (R41). -/
theorem exec_round (b : ByteIndex) (k : Fin 8) (s : State) :
    exec (.round b k) s = .next { s with acc := roundFn s.acc s.poly } :=
  congrArg Host.Outcome.next (State.doRound_eq s)

theorem roundFn_toNat (a p : Byte) :
    (roundFn a p).toNat = (2 * a.toNat) % 256 ^^^ (if a.getLsbD 7 then p.toNat else 0) := by
  have hshift : (a <<< 1).toNat = (2 * a.toNat) % 256 := by
    rw [BitVec.toNat_shiftLeft, Nat.shiftLeft_eq, Nat.mul_comm]
  rw [roundFn_eq]
  split
  · rw [BitVec.toNat_xor, hshift]
  · rw [hshift, Nat.xor_zero]

theorem roundFn_getLsbD (a p : Byte) (i : Nat) :
    (roundFn a p).getLsbD i = ((a <<< 1).getLsbD i ^^ (a.getLsbD 7 && p.getLsbD i)) := by
  rw [roundFn_eq]
  cases a.getLsbD 7 <;> simp

/-- Bit by bit, AND with the one wire p[i] distributes over XOR (R42). -/
theorem roundFn_xor (a a' p : Byte) : roundFn (a ^^^ a') p = roundFn a p ^^^ roundFn a' p := by
  refine BitVec.eq_of_getLsbD_eq fun i _ => ?_
  simp only [BitVec.getLsbD_xor, roundFn_getLsbD, BitVec.shiftLeft_xor_distrib, Bool.and_xor_distrib_right,
    Bool.xor_assoc, Bool.xor_left_comm]

/-- Settles O3: the round function in integers, and the sixteen words of the table. -/
theorem roundShiftsAndReduces : Obligations.RoundShiftsAndReduces :=
  ⟨fun b k s => ⟨_, exec_round b k s, roundFn_toNat s.acc s.poly⟩, by decide⟩

/-- Settles O4: the bits of the shift are ACC's one place up, with 0 at the bottom; 80 under 00 and 00 under 01 give 00
each, but 80 under 01 gives 01. -/
theorem roundIsBitParallel : Obligations.RoundIsBitParallel := by
  refine ⟨fun b k s => ⟨_, exec_round b k s, ?_, fun i => ?_⟩, roundFn_xor, roundFn_zero,
    0x80#8, 0x00#8, 0x00#8, 0x01#8, by decide⟩
  · rw [roundFn_getLsbD, BitVec.getLsbD_shiftLeft]
    simp
  · rw [roundFn_getLsbD, BitVec.getLsbD_shiftLeft]
    simp [show i.val + 1 < 8 by omega]

/-! ## A wider accumulator (R45) -/

theorem ofNat_xor_toNat (r : Nat) (b : Byte) : BitVec.ofNat 8 (r ^^^ b.toNat) = BitVec.ofNat 8 r ^^^ b := by
  rw [BitVec.ofNat_xor, BitVec.ofNat_toNat, BitVec.setWidth_eq]

/-- The low 8 bits of a wide round are ROUND of the low 8 bits: neither doubling nor XOR carries a bit down. -/
theorem ofNat_wideRound (p : Byte) :
    Function.Semiconj (BitVec.ofNat 8) (fun r => wideRound r p) (fun a => roundFn a p) := by
  intro r
  have hbit : (BitVec.ofNat 8 r).getLsbD 7 = r.testBit Config.highBit :=
    BitVec.getLsbD_ofNat 8 r 7
  have hshift : BitVec.ofNat 8 (2 * r) = BitVec.ofNat 8 r <<< 1 := by
    apply BitVec.eq_of_toNat_eq
    simp [Nat.shiftLeft_eq, Nat.mul_comm]
  simp only [roundFn_eq, wideRound, hbit]
  split
  · rw [ofNat_xor_toNat, hshift]
  · exact hshift

/-- The final mask keeps the low 8 bits. -/
theorem and_outputMask_toNat (r : Nat) : r &&& Config.outputMask.toNat = (BitVec.ofNat 8 r).toNat :=
  Nat.and_two_pow_sub_one_eq_mod r 8

theorem wideCrc8_eq (d0 d1 p : Byte) : wideCrc8 d0 d1 p = (crc8Fn d0 d1 p).toNat := by
  have hrounds := times_semiconj (ofNat_wideRound p) Config.roundsPerByte
  simp only [wideCrc8, and_outputMask_toNat]
  rw [hrounds, ofNat_xor_toNat, hrounds, ofNat_xor_toNat, BitVec.ofNat_toNat, BitVec.setWidth_eq, crc8Fn,
    and_outputMask]
  rfl

/-- Settles O37: taking the low 8 bits commutes with the round, the XOR and so with the whole algorithm. -/
theorem wideAccumulatorAgrees : Obligations.WideAccumulatorAgrees :=
  ⟨fun r p => congrArg BitVec.toNat (ofNat_wideRound p r), fun r b => congrArg BitVec.toNat (ofNat_xor_toNat r b),
    wideCrc8_eq⟩

/-! ## INIT, XORB and OUT (R39, R40, R43) -/

/-- Settles O1: INIT and ACCEPT by their laws; with 00 for FF the bytes 00, 00 leave 00, where CRC8 gives 81. -/
theorem initSetsAccumulator : Obligations.InitSetsAccumulator := by
  refine ⟨fun s => congrArg Host.Outcome.next s.doInit_eq, fun s => ⟨_, rfl, ?_⟩, by decide, by decide⟩
  rw [State.doAccept_eq]

/-- Settles O2: both XORBs are the law of XORB i with the operand buffer read at i. -/
theorem xorbAbsorbsByte : Obligations.XorbAbsorbsByte :=
  ⟨fun s => congrArg Host.Outcome.next (s.doXorb_eq 0), fun s => congrArg Host.Outcome.next (s.doXorb_eq 1),
    by decide, by decide⟩

/-- Settles O5: STEP = 19 is DONE, where `crc` is ACC and the mask is the identity. -/
theorem outDrivesResult : Obligations.OutDrivesResult := by
  refine ⟨fun _ => rfl, fun s h => ?_, by decide⟩
  have hdone : s.done = true := s.done_iff.2 h
  have hcrc : s.crc = s.acc := State.crc_of_done hdone
  exact ⟨hcrc.trans (and_outputMask s.acc).symm, hcrc, hdone⟩

end Machine

end Sys2Proof

/-! Proofs of the family 41_crc8_operation.md: BYTE as eight rounds, the zero polynomial, single bit flips, and the golden
values. -/

namespace Sys2Proof.Machine

/-! ## BYTE: eight rounds and its table (R46) -/

theorem byteFn_eq (a b p : Byte) : byteFn a b p = roundsFn 8 (a ^^^ b) p := rfl

theorem byteFn_self (a p : Byte) : byteFn a a p = 0 := by
  rw [byteFn_eq, BitVec.xor_self]
  exact roundsFn_of_zero 8 p

theorem roundsFn_add (m n : Nat) (a p : Byte) : roundsFn (m + n) a p = roundsFn n (roundsFn m a p) p :=
  times_add _ m n a

/-- The bit 1 needs seven rounds to reach bit 7; until then nothing is reduced. -/
theorem roundsFn_one {k : Nat} (hk : k ≤ 7) (p : Byte) : roundsFn k 1#8 p = 1#8 <<< k := by
  induction k with
  | zero => rfl
  | succ k ih =>
    have hbit : (1#8 <<< k).getLsbD 7 = false := by
      have hne : 7 - k ≠ 0 := by omega
      simp [hne]
    rw [roundsFn_succ, ih (by omega), roundFn_eq, hbit, BitVec.shiftLeft_add]
    rfl

/-- The eighth round shifts the bit out and leaves the polynomial. -/
theorem roundsFn_eight_one (p : Byte) : roundsFn 8 1#8 p = p := by
  have htop : (1#8 <<< 7).getLsbD 7 = true := by decide
  have hout : 1#8 <<< 7 <<< 1 = 0#8 := by decide
  rw [roundsFn_succ, roundsFn_one (le_refl 7), roundFn_eq, if_pos htop, hout, BitVec.zero_xor]

/-- Settles O8: BYTE by its law; the sixteen values and the eighteen words by evaluation. -/
theorem byteProcessesOneByte : Obligations.ByteProcessesOneByte :=
  ⟨fun i s => congrArg Host.Outcome.next (s.doByte_eq i), fun a p => ⟨rfl, fun k => roundsFn_succ k a p⟩,
    fun a p => ⟨byteFn_self a p, roundsFn_eight_one p⟩, by decide, by decide, by decide⟩

/-! ## The polynomial 00 (R52) -/

theorem roundFn_poly_zero (a : Byte) : roundFn a 0x00#8 = a <<< 1 := by
  rw [roundFn_eq, BitVec.xor_zero, ite_self]

theorem roundsFn_poly_zero (n : Nat) (a : Byte) : roundsFn n a 0x00#8 = a <<< n := by
  induction n with
  | zero => rw [roundsFn_zero, BitVec.shiftLeft_zero]
  | succ n ih => rw [roundsFn_succ, ih, roundFn_poly_zero, BitVec.shiftLeft_add]

theorem roundsFn_eight_poly_zero (a : Byte) : roundsFn 8 a 0x00#8 = 0x00#8 := by
  rw [roundsFn_poly_zero]
  exact BitVec.shiftLeft_eq_zero (le_refl 8)

theorem crc8Fn_poly_zero (d0 d1 : Byte) : crc8Fn d0 d1 0x00#8 = 0x00#8 := by
  rw [crc8Fn_eq, roundsFn_eight_poly_zero]

/-- Settles O39: eight plain shifts empty the byte, and the machine's transaction ends with that result. -/
theorem zeroPolynomialShiftsEverythingOut : Obligations.ZeroPolynomialShiftsEverythingOut := by
  refine ⟨roundFn_poly_zero, roundsFn_eight_poly_zero, fun a b => roundsFn_eight_poly_zero (a ^^^ b),
    crc8Fn_poly_zero, fun s hreq hnr hpoly => ?_⟩
  obtain ⟨t, hrun, hdone, hcrc⟩ := run_transaction_done hreq hnr
  exact ⟨t, hrun, t.done_iff.1 hdone, by rw [hcrc, hpoly, crc8Fn_poly_zero]⟩

/-! ## The difference two inputs make (R51, R53) -/

theorem roundsFn_xor (n : Nat) (a a' p : Byte) :
    roundsFn n (a ^^^ a') p = roundsFn n a p ^^^ roundsFn n a' p := by
  induction n with
  | zero => rfl
  | succ n ih => simp only [roundsFn_succ, ih, roundFn_xor]

/-- The difference of two results is what the difference of the inputs alone leaves, starting from 00. -/
theorem crc8Fn_difference (d0 d1 e0 e1 p : Byte) :
    crc8Fn (d0 ^^^ e0) (d1 ^^^ e1) p ^^^ crc8Fn d0 d1 p = roundsFn 8 (roundsFn 8 e0 p ^^^ e1) p := by
  have hcancel : ∀ x y : Byte, x ^^^ y ^^^ (d1 ^^^ e1) ^^^ (x ^^^ d1) = y ^^^ e1 := fun x y =>
    calc x ^^^ y ^^^ (d1 ^^^ e1) ^^^ (x ^^^ d1) = (x ^^^ d1) ^^^ (x ^^^ d1) ^^^ (y ^^^ e1) := by ac_rfl
      _ = y ^^^ e1 := by rw [BitVec.xor_self, BitVec.zero_xor]
  rw [crc8Fn_eq, crc8Fn_eq, ← roundsFn_xor, ← BitVec.xor_assoc 0xFF#8 d0 e0, roundsFn_xor 8 (0xFF#8 ^^^ d0), hcancel]

theorem crc8Fn_difference_first (d0 d1 e p : Byte) :
    crc8Fn (d0 ^^^ e) d1 p ^^^ crc8Fn d0 d1 p = roundsFn 16 e p := by
  have h := crc8Fn_difference d0 d1 e 0#8 p
  rwa [BitVec.xor_zero, BitVec.xor_zero, ← roundsFn_add] at h

theorem crc8Fn_difference_second (d0 d1 e p : Byte) :
    crc8Fn d0 (d1 ^^^ e) p ^^^ crc8Fn d0 d1 p = roundsFn 8 e p := by
  have h := crc8Fn_difference d0 d1 0#8 e p
  rwa [BitVec.xor_zero, show roundsFn 8 0#8 p = 0#8 from roundsFn_of_zero 8 p, BitVec.zero_xor] at h

/-! ## The polynomial survives any number of rounds (R51)

Let `m` be the lowest bit set in `p`. Below bit `m` a round of `p` shows nothing but zeros, and a byte of that kind cannot
cancel against `p`, for its shift has a 0 at bit `m`. -/

/-- The bits below `m` are 0: the byte is a multiple of 2 to the power `m`. -/
def LowBitsClear (m : Nat) (a : Byte) : Prop := ∀ i < m, a.getLsbD i = false

/-- The shift of such a byte is clear one bit further. -/
theorem LowBitsClear.shiftLeft {m : Nat} {a : Byte} (h : LowBitsClear m a) : LowBitsClear (m + 1) (a <<< 1) := by
  intro i hi
  rw [BitVec.getLsbD_shiftLeft]
  cases i with
  | zero => simp
  | succ i => simp [h i (by omega)]

theorem LowBitsClear.roundFn {m : Nat} {a p : Byte} (ha : LowBitsClear m a) (hp : LowBitsClear m p) :
    LowBitsClear m (roundFn a p) := by
  intro i hi
  rw [roundFn_getLsbD, ha.shiftLeft i (by omega), hp i hi, Bool.and_false, Bool.xor_false]

/-- A byte other than 0 has a lowest bit set. -/
theorem exists_lowest_bit {p : Byte} (hp : p ≠ 0x00#8) : ∃ m, p.getLsbD m = true ∧ LowBitsClear m p := by
  have hex : ∃ m, p.getLsbD m = true := by
    by_contra hnone
    exact hp (BitVec.eq_of_getLsbD_eq fun i _ => by
      rw [BitVec.getLsbD_zero]
      exact Bool.eq_false_iff.2 fun h => hnone ⟨i, h⟩)
  exact ⟨Nat.find hex, Nat.find_spec hex, fun i hi => Bool.eq_false_iff.2 (Nat.find_min hex hi)⟩

/-- Without bit 7 a round loses nothing; with it, bit `m` comes from the polynomial alone. -/
theorem roundFn_ne_zero {m : Nat} {a p : Byte} (hm : p.getLsbD m = true) (ha : LowBitsClear m a)
    (hne : a ≠ 0x00#8) : roundFn a p ≠ 0x00#8 := by
  intro hzero
  have hbits : ∀ i, ((a <<< 1).getLsbD i ^^ (a.getLsbD 7 && p.getLsbD i)) = false := fun i => by
    rw [← roundFn_getLsbD, hzero, BitVec.getLsbD_zero]
  cases htop : a.getLsbD 7 with
  | true =>
    have h := hbits m
    rw [htop, hm, ha.shiftLeft m (by omega)] at h
    exact absurd h (by decide)
  | false =>
    refine hne (BitVec.eq_of_getLsbD_eq fun i hi => ?_)
    rw [BitVec.getLsbD_zero]
    obtain rfl | hlt : i = 7 ∨ i + 1 < 8 := by omega
    · exact htop
    · have h := hbits (i + 1)
      rw [htop, BitVec.getLsbD_shiftLeft] at h
      simpa [hlt] using h

theorem roundsFn_poly_ne_zero (n : Nat) {p : Byte} (hp : p ≠ 0x00#8) : roundsFn n p p ≠ 0x00#8 := by
  obtain ⟨m, hm, hclear⟩ := exists_lowest_bit hp
  have hkept : ∀ a, a ≠ 0x00#8 ∧ LowBitsClear m a → roundFn a p ≠ 0x00#8 ∧ LowBitsClear m (roundFn a p) :=
    fun a ⟨hne, ha⟩ => ⟨roundFn_ne_zero hm ha hne, ha.roundFn hclear⟩
  exact (times_invariant hkept n ⟨hp, hclear⟩).1

/-- A single bit at `j` is the bit 1 after `j` rounds, so eight rounds and more turn it into rounds of the polynomial. -/
theorem roundsFn_single_bit (j : Fin 8) (n : Nat) (p : Byte) :
    roundsFn (8 + n) (1#8 <<< j.val) p = roundsFn (j.val + n) p p := by
  rw [← roundsFn_one (by omega : j.val ≤ 7) p, ← roundsFn_add, Nat.add_left_comm, roundsFn_add, roundsFn_eight_one]

theorem roundsFn_single_bit_ne_zero (j : Fin 8) (n : Nat) {p : Byte} (hp : p ≠ 0x00#8) :
    roundsFn (8 + n) (1#8 <<< j.val) p ≠ 0x00#8 := by
  rw [roundsFn_single_bit]
  exact roundsFn_poly_ne_zero _ hp

/-- Settles O38: the flipped bit alone, through 16 or 8 rounds, is the difference, and it is not 0 unless `p` is. -/
theorem singleBitFlipIsDetected : Obligations.SingleBitFlipIsDetected := by
  refine ⟨fun d0 d1 p j hp => ⟨fun heq => ?_, fun heq => ?_⟩, fun d0 d1 j => ?_, fun d0 d1 e0 e1 p => ?_⟩
  · refine roundsFn_single_bit_ne_zero j 8 hp ?_
    rw [← crc8Fn_difference_first d0 d1, heq, BitVec.xor_self]
  · refine roundsFn_single_bit_ne_zero j 0 hp ?_
    rw [← crc8Fn_difference_second d0 d1, heq, BitVec.xor_self]
  · simp only [crc8Fn_poly_zero, and_self]
  · have h := crc8Fn_difference 0x00#8 0x00#8 e0 e1 p
    rw [BitVec.zero_xor, BitVec.zero_xor] at h
    rw [crc8Fn_difference, h]

/-! ## The golden values (R54) -/

/-- A request to the engine as reset leaves it, under a host that is quiet afterwards. -/
theorem run_request_from_reset (d0 d1 p : Byte) :
    ∃ t, run 19 { State.reset with ports := Ports.request d0 d1 p } = .next t ∧ t.done = true ∧
      t.crc = crc8Fn d0 d1 p :=
  run_transaction_done (s := { State.reset with ports := Ports.request d0 d1 p }) ⟨rfl, rfl, rfl⟩
    ⟨rfl, List.forall_mem_nil _⟩

/-- Settles O42: the three values by evaluation, and the machine's transaction computes the function. -/
theorem goldenVectors : Obligations.GoldenVectors := by
  have h0000 : crc8Fn 0x00#8 0x00#8 0x31#8 = 0x81#8 := by decide
  have hBEEF : crc8Fn 0xBE#8 0xEF#8 0x31#8 = 0x92#8 := by decide
  have hFFFF : crc8Fn 0xFF#8 0xFF#8 0x31#8 = 0xAC#8 := by decide
  exact ⟨h0000, hBEEF, hFFFF, h0000 ▸ run_request_from_reset _ _ _, hBEEF ▸ run_request_from_reset _ _ _,
    hFFFF ▸ run_request_from_reset _ _ _⟩

end Sys2Proof.Machine

/-! Proofs of the family 42_sequencer.md: which transition the sequencer selects, what ACCEPT, ADVANCE, HOLD and IGNORE do,
and the transaction theorem. -/

namespace Sys2Proof.Machine

/-! ## The condition of each transition (R34, R55 to R58) -/

theorem State.transition_eq_accept_iff (s : State) : s.transition = .accept ↔ s.requesting := by
  rw [State.transition_eq]
  split_ifs <;> simp [State.requesting, *]

theorem State.transition_eq_hold_iff (s : State) :
    s.transition = .hold ↔ s.ports.rst = false ∧ s.ports.start = false ∧ s.ready = true := by
  rw [State.transition_eq]
  split_ifs <;> simp [*]

theorem State.transition_eq_ignore_iff (s : State) :
    s.transition = .ignore ↔ s.ports.rst = false ∧ s.ports.start = true ∧ s.busy = true := by
  have hbusy : s.busy = !s.ready := by rw [s.ready_eq_not_busy, Bool.not_not]
  rw [State.transition_eq, hbusy]
  split_ifs <;> simp [*]

/-- In RUN without reset the transition is an IGNORE or an ADVANCE, by `start` (R56, R58). -/
theorem State.transition_of_running {s : State} (hrst : s.ports.rst = false)
    (hrun : 1 ≤ s.step.val ∧ s.step.val ≤ 18) :
    s.transition = if s.ports.start then .ignore else .advance := by
  simp [State.transition_eq, hrst, State.not_ready_of_running hrun]

/-- Without reset RUN sees no transition but these two. -/
theorem State.transition_advance_or_ignore {s : State} (hrst : s.ports.rst = false)
    (hrun : 1 ≤ s.step.val ∧ s.step.val ≤ 18) : s.transition = .advance ∨ s.transition = .ignore := by
  rw [State.transition_of_running hrst hrun]
  split
  · exact .inr rfl
  · exact .inl rfl

/-- Settles O12: ACCEPT by its law; STEP = 1 shows the outputs of RUN. -/
theorem acceptLatchesOperands : Obligations.AcceptLatchesOperands :=
  ⟨fun s => ⟨_, rfl, State.doAccept_eq _ _ _ s, rfl⟩, State.transition_eq_accept_iff⟩

/-! ## ADVANCE and IGNORE in RUN (R56, R58) -/

/-- An ADVANCE in RUN with STEP as a number: the micro-operation, and one more in STEP. -/
theorem State.doAdvance_of_running {s : State} (hrun : 1 ≤ s.step.val ∧ s.step.val ≤ 18) :
    ∃ n : StepNo, n.val = s.step.val + 1 ∧ s.doAdvance =
      { s with
        acc :=
          if s.step.val = 1 then s.acc ^^^ s.d0
          else if s.step.val = 10 then s.acc ^^^ s.d1
          else roundFn s.acc s.poly
        step := n } := by
  refine ⟨nextStep s.step, nextStep_val_of_running hrun, ?_⟩
  have h1 : s.step = 1 ↔ s.step.val = 1 := Fin.ext_iff
  have h10 : s.step = 10 ↔ s.step.val = 10 := Fin.ext_iff
  rw [State.doAdvance_eq, State.doAdvance_acc hrun]
  simp only [h1, h10]

/-- Settles O13: the law of ADVANCE in RUN, and the transition where `start` is 0. -/
theorem advancePerformsMicroOperation : Obligations.AdvancePerformsMicroOperation := by
  intro s h1 h18
  obtain ⟨n, hn, hadv⟩ := State.doAdvance_of_running ⟨h1, h18⟩
  refine ⟨⟨n, hn, congrArg Host.Outcome.next hadv⟩, fun hrst hstart => ?_⟩
  rw [State.transition_of_running hrst ⟨h1, h18⟩, hstart]
  rfl

/-- A busy engine reads none of the ports but `rst` (R58). -/
theorem step_of_busy_driven {s : State} {q : Ports} (hbusy : s.busy = true) (hq : q.rst = false) :
    step { s with ports := q } = .next s.doAdvance.hostMove := by
  rw [step_eq, afterTransition_of_running_driven (s.busy_iff.1 hbusy) hq s.agenda, ← s.doAdvance_agenda]
  rfl

/-- Settles O15: IGNORE has ADVANCE's law, and a busy step under any ports is the same ADVANCE. -/
theorem ignoreDropsRequest : Obligations.IgnoreDropsRequest := by
  refine ⟨fun s h1 h18 => ?_, State.transition_eq_ignore_iff, fun s q hbusy hq => ?_⟩
  · obtain ⟨n, hn, hadv⟩ := State.doAdvance_of_running ⟨h1, h18⟩
    exact ⟨n, hn, congrArg Host.Outcome.next hadv⟩
  · rw [step_of_busy_driven hbusy hq, step_of_busy_driven hbusy rfl]

/-! ## HOLD, and how DONE is left and IDLE entered (R57) -/

/-- A step from DONE is a HOLD, an ACCEPT or a RESET: an ADVANCE needs STEP below 19. -/
theorem step_of_done {s t : State} (h : step s = .next t) (hdone : s.step.val = 19) :
    t.step.val = 19 ∨ (s.requesting ∧ t.step.val = 1) ∨ (s.ports.rst = true ∧ t.step.val = 0) := by
  obtain ⟨hrst, rfl⟩ | ⟨hrst, hready, hstart, rfl⟩ | ⟨-, hrun, -⟩ | ⟨-, -, -, rfl⟩ := step_cases h
  · exact .inr (.inr ⟨hrst, rfl⟩)
  · exact .inr (.inl ⟨⟨hready, hrst, hstart⟩, rfl⟩)
  · omega
  · exact .inl hdone

/-- A step into IDLE is a HOLD there or a RESET: ACCEPT goes to 1, and ADVANCE to at least 2. -/
theorem step_into_idle {s t : State} (h : step s = .next t) (hidle : t.step.val = 0) :
    s.step.val = 0 ∨ s.ports.rst = true := by
  obtain ⟨hrst, -⟩ | ⟨-, -, -, rfl⟩ | ⟨-, hrun, rfl⟩ | ⟨-, -, -, rfl⟩ := step_cases h
  · exact .inr hrst
  · exact absurd hidle (by simp [State.doAccept_eq])
  · have hnext : (nextStep s.step).val = s.step.val + 1 := nextStep_val_of_running hrun
    exact absurd (hnext.symm.trans hidle) (Nat.succ_ne_zero _)
  · exact .inl hidle

/-- Settles O14: HOLD's condition with `ready` read off STEP, and the steps out of DONE and into IDLE. -/
theorem holdChangesNothing : Obligations.HoldChangesNothing :=
  ⟨fun _ => rfl, fun s => by rw [State.transition_eq_hold_iff, State.ready_iff], fun _ _ => step_of_done,
    fun _ _ => step_into_idle⟩

/-! ## The transaction theorem (R59) -/

/-- A step of a waiting engine is a HOLD, and the host moves on. -/
theorem step_of_waiting {s : State} (hrst : s.ports.rst = false) (hready : s.ready = true)
    (hstart : s.ports.start = false) : step s = .next s.hostMove := by
  rw [step_eq, afterTransition_of_waiting hrst hready hstart]

/-- A result stands through a step in which the host does nothing (R57). -/
theorem hold_keeps_result {t : State} (hdone : t.done = true) (hrst : t.ports.rst = false)
    (hstart : t.ports.start = false) :
    t.transition = .hold ∧ ∃ u, step t = .next u ∧ u.step.val = 19 ∧ u.crc = t.crc := by
  have h19 := t.done_iff.1 hdone
  have hready := t.ready_iff.2 (.inr h19)
  exact ⟨t.transition_eq_hold_iff.2 ⟨hrst, hstart, hready⟩, _, step_of_waiting hrst hready hstart, h19, rfl⟩

/-- Settles O32: the fields after `k` micro-operations; below eighteen the engine is in RUN, and at eighteen the algorithm
is complete. -/
theorem transactionComputesCrc8 : Obligations.TransactionComputesCrc8 := by
  intro s hreq hnr
  refine ⟨fun k hk => ⟨_, run_of_requesting_fields hreq hnr hk hk, rfl, rfl, fun hlt => ?_⟩, ?_⟩
  · exact State.transition_advance_or_ignore (hnr.rst_drop hlt) ⟨Nat.le_add_left 1 k, hlt⟩
  · obtain ⟨t, hrun, hdone, hcrc⟩ := run_transaction_done hreq hnr
    exact ⟨t, hrun, t.done_iff.1 hdone, (State.crc_of_done hdone).symm.trans hcrc, hdone, hcrc,
      hold_keeps_result hdone⟩

end Sys2Proof.Machine

/-! Proofs of the family 70_reset_and_hazards.md: the state a RESET leaves, and the transaction it abandons. -/

namespace Sys2Proof.Machine

/-! ## RESET and the state it leaves (R72) -/

theorem State.transition_eq_reset_iff (s : State) : s.transition = .reset ↔ s.ports.rst = true := by
  rw [State.transition_eq]
  split_ifs <;> simp [*]

theorem State.outputs_of_idle {s : State} (h : s.step.val = 0) :
    s.outputs = { ready := true, busy := false, done := false, crc := 0x00#8 } := by
  simp [State.outputs, State.crc, State.ready, State.busy, State.done, h]

/-- A ready engine that is not reset takes a request, or waits for one (R34). -/
theorem State.transition_of_ready {s : State} (hrst : s.ports.rst = false) (hready : s.ready = true) :
    s.transition = if s.ports.start then .accept else .hold := by
  simp [State.transition_eq, hrst, hready]

/-- Under `rst` the step is a RESET, whatever STEP and `start` are (R72). -/
theorem step_of_reset {s : State} (hrst : s.ports.rst = true) : step s = .next s.doReset.hostMove := by
  rw [step_eq, afterTransition_of_reset hrst]

/-! ## The abandoned transaction (R73) -/

/-- Below STEP = 19 no result is shown (R17). -/
theorem State.no_result_of_step_le {s : State} (h : s.step.val ≤ 18) : s.done = false ∧ s.crc = 0x00#8 := by
  have hdone : s.done = false := Bool.eq_false_iff.2 (mt s.done_iff.1 (by omega))
  exact ⟨hdone, State.crc_of_not_done hdone⟩

/-- The step leaves the reset state, in which no result stands (R72, R73). -/
theorem step_of_reset_enters_idle {t : State} (hrst : t.ports.rst = true) :
    ∃ u, step t = .next u ∧ u.step.val = 0 ∧ u.acc = 0xFF#8 ∧ u.done = false ∧ u.crc = 0x00#8 :=
  ⟨_, step_of_reset hrst, rfl, rfl, State.no_result_of_step_le (Nat.zero_le 18)⟩

/-- Eighteen steps of a transaction without reset, the ACCEPT among them, end in RUN at the latest (R61). -/
theorem run_of_requesting_no_result {s v : State} (hreq : s.requesting) {n : Nat} (hnr : s.noReset n) {k : Nat}
    (hk : k ≤ n) (hk17 : k ≤ 17) (hrun : run (k + 1) s = .next v) : v.done = false ∧ v.crc = 0x00#8 := by
  rw [run_of_requesting_fields hreq hnr hk (by omega)] at hrun
  cases hrun
  exact State.no_result_of_step_le (Nat.succ_le_succ hk17)

/-- Settles O17: up to the reset STEP is at most 18, and the RESET leaves STEP = 0, in RUN and in DONE alike. -/
theorem resetAbandonsTransaction : Obligations.ResetAbandonsTransaction := by
  refine ⟨fun s t k hreq hk hnr _ hrst => ⟨fun j v hj hv => ?_, step_of_reset_enters_idle hrst⟩, fun t _ hrst => ?_⟩
  · exact run_of_requesting_no_result hreq hnr hj (hj.trans hk) hv
  · obtain ⟨u, hstep, hidle, -, hnone⟩ := step_of_reset_enters_idle hrst
    exact ⟨u, hstep, hidle, hnone⟩

/-- Settles O16: the fields a RESET leaves, the outputs of STEP = 0, and what an idle engine does next. -/
theorem resetEntersIdle : Obligations.ResetEntersIdle := by
  refine ⟨fun s => ?_, State.transition_eq_reset_iff, fun s hrst => ?_, rfl, rfl⟩
  · obtain ⟨hstep, hacc, hports, hagenda⟩ := s.doReset_fields
    have hidle : s.doReset.step.val = 0 := congrArg Fin.val hstep
    exact ⟨_, rfl, hidle, hacc, hports, hagenda, State.outputs_of_idle hidle⟩
  · obtain ⟨t, ht, hidle, hacc, -⟩ := step_of_reset_enters_idle hrst
    exact ⟨t, ht, hidle, hacc, State.outputs_of_idle hidle, t.transition_eq_reset_iff.2,
      fun hrst' => State.transition_of_ready hrst' (t.ready_iff.2 (.inl hidle))⟩

end Sys2Proof.Machine

/-! Proofs of the family 'other': the encodings both ways, the invariants every step keeps, what an
instruction writes, the transaction as one instruction, as steps and as clock cycles, the function's algebra, the boundary and
the bank. -/

namespace Sys2Proof

/-! ## The encodings both ways (R31 to R36) -/

theorem ofNat_toNat_self {n : Nat} (w : BitVec n) : BitVec.ofNat n w.toNat = w := by
  rw [BitVec.ofNat_toNat, BitVec.setWidth_eq]

/-- The STEP word of a STEP value decodes to that row of the micro-program (R32). -/
theorem decode_step5Of (n : StepNo) : decode (step5Of n.val) = .ok (microProgram n).toInstr := by
  revert n; decide

/-- The row's instruction has that word and no other. -/
theorem encode_microProgram (n : StepNo) : encode (microProgram n).toInstr = [step5Of n.val] := by
  revert n; decide

/-- ROUND number `k` stands `k + 1` places after the first STEP value of its group (R32). -/
theorem decode_round_word (b : ByteIndex) (k : Fin 8) :
    decode (step5Of (groupStart b + 1 + k.val)) = .ok (.round b k) := by
  revert b k; decide

theorem decodeStep5_of_reserved {w : BitVec 5} (h : 20 ≤ w.toNat) : decode (.step5 w) = .error (.reservedStep w) :=
  dif_neg (Nat.not_lt.2 h)

/-- Every STEP word is reserved or the word of a STEP value (R36). -/
theorem step5_cases (w : BitVec 5) : 20 ≤ w.toNat ∨ ∃ n : StepNo, Code.step5 w = step5Of n.val := by
  obtain hlt | hge := Nat.lt_or_ge w.toNat 20
  · exact .inr ⟨⟨w.toNat, hlt⟩, congrArg Code.step5 (ofNat_toNat_self w).symm⟩
  · exact .inl hge

/-- A STEP word that decodes is that of a STEP value. -/
theorem exists_stepNo_of_decode {w : BitVec 5} {i : Instr} (h : decode (.step5 w) = .ok i) :
    ∃ n : StepNo, Code.step5 w = step5Of n.val ∧ i = (microProgram n).toInstr := by
  obtain hge | ⟨n, hn⟩ := step5_cases w
  · cases h.symm.trans (decodeStep5_of_reserved hge)
  · rw [hn, decode_step5Of] at h
    exact ⟨n, hn, (Except.ok.inj h).symm⟩

/-- The control words of the four transitions are their encodings; those of RESET have two free bits (R34). -/
theorem encode_decodeCtl3 (w : BitVec 3) (h : decodeCtl3 w ≠ .reset) : encode (decodeCtl3 w) = [.ctl3 w] := by
  revert w; decide

theorem decodeCtl3_eq_reset_iff (w : BitVec 3) : decodeCtl3 w = .reset ↔ w.getLsbD 2 = true := by
  revert w; decide

/-- The three fields of a request word make up the word (R31). -/
theorem req24_fields (w : BitVec 24) : w.extractLsb' 16 8 ++ w.extractLsb' 8 8 ++ w.extractLsb' 0 8 = w := by
  have hhigh : w.extractLsb' 16 8 ++ w.extractLsb' 8 8 = w.extractLsb' 8 16 :=
    BitVec.extractLsb'_append_extractLsb'_eq_extractLsb' rfl
  rw [hhigh]
  exact BitVec.extractLsb'_append_extractLsb'

/-- An instruction with a word of its own is what that word decodes to. -/
theorem decode_encode_of_wellFormed {i : Instr} (h : i.wellFormed = true) : ∃ c, encode i = [c] ∧ decode c = .ok i := by
  cases i with
  | crc8 d0 d1 p => exact ⟨_, rfl, congrArg Except.ok (decodeReq24_append d0 d1 p)⟩
  | rsp8 c => exact ⟨_, rfl, rfl⟩
  | idle => exact ⟨_, rfl, decode_step5Of 0⟩
  | xorb0 => exact ⟨_, rfl, decode_step5Of 1⟩
  | round b k => exact ⟨_, rfl, decode_round_word b k⟩
  | xorb1 => exact ⟨_, rfl, decode_step5Of 10⟩
  | out => exact ⟨_, rfl, decode_step5Of 19⟩
  | reset | accept | hold | advance | ignore => exact ⟨_, rfl, by decide⟩
  | init | byte => cases h

/-- Only INIT and BYTE issue something else than themselves (R38, R39). -/
theorem issued_of_wellFormed {i : Instr} (h : i.wellFormed = true) : i.issued = [i] := by
  cases i with
  | init | byte => cases h
  | _ => rfl

theorem decodeAll_singleton {c : Code} {i : Instr} (h : decode c = .ok i) : decodeAll [c] = .ok [i] := by
  simp [decodeAll, h]

/-- The words of any instruction decode to what they issue: INIT and BYTE, which have no word of their own, by
evaluation. -/
theorem decodeAll_encode (i : Instr) : decodeAll (encode i) = .ok i.issued := by
  cases hwf : i.wellFormed with
  | true =>
    obtain ⟨c, hc, hdecode⟩ := decode_encode_of_wellFormed hwf
    rw [hc, decodeAll_singleton hdecode, issued_of_wellFormed hwf]
  | false =>
    cases i with
    | init => decide
    | byte b => revert b; decide
    | _ => cases hwf

/-- Settles O47: the round trip through one word, and through the words of INIT and BYTE. -/
theorem decodeGivesBackEncoded : Obligations.DecodeGivesBackEncoded :=
  ⟨decodeAll_encode, rfl, fun _ => decode_encode_of_wellFormed⟩

/-- A word that decodes, not to RESET, is the one word of what it decodes to. -/
theorem encode_of_decode {c : Code} {i : Instr} (h : decode c = .ok i) (hi : i ≠ .reset) : encode i = [c] := by
  cases c with
  | req24 w =>
    cases h
    exact congrArg (fun v => [Code.req24 v]) (req24_fields w)
  | rsp8 w => cases h; rfl
  | step5 w =>
    obtain ⟨n, hn, rfl⟩ := exists_stepNo_of_decode h
    rw [hn, encode_microProgram]
  | ctl3 w => cases h; exact encode_decodeCtl3 w hi

theorem toInstr_ne_reset (m : MicroOp) : m.toInstr ≠ .reset := by
  cases m with
  | xorb i => revert i; decide
  | idle | round | out => exact Instr.noConfusion

/-- Only a control word decodes to RESET, by its bit rst (R34). -/
theorem decode_eq_reset_iff (c : Code) : decode c = .ok .reset ↔ ∃ w : BitVec 3, c = .ctl3 w ∧ w.getLsbD 2 = true := by
  constructor
  · intro h
    cases c with
    | req24 w => cases h
    | rsp8 w => cases h
    | step5 w =>
      obtain ⟨n, -, hn⟩ := exists_stepNo_of_decode h
      exact absurd hn.symm (toInstr_ne_reset _)
    | ctl3 w => exact ⟨w, rfl, (decodeCtl3_eq_reset_iff w).1 (Except.ok.inj h)⟩
  · rintro ⟨w, rfl, hw⟩
    exact congrArg Except.ok ((decodeCtl3_eq_reset_iff w).2 hw)

/-- Settles O48: the words of each format, and the words of RESET. -/
theorem encodeGivesBackDecoded : Obligations.EncodeGivesBackDecoded :=
  ⟨fun _ _ => encode_of_decode, decode_eq_reset_iff⟩

theorem decode_step5_eq_error_iff (w : BitVec 5) : decode (.step5 w) = .error (.reservedStep w) ↔ 20 ≤ w.toNat := by
  refine ⟨fun h => (step5_cases w).resolve_right ?_, decodeStep5_of_reserved⟩
  rintro ⟨n, hn⟩
  rw [hn, decode_step5Of] at h
  cases h

/-- Settles O51: a STEP word is reserved or in the table; the other three formats are total. -/
theorem onlyReservedStepsAreRejected : Obligations.OnlyReservedStepsAreRejected := by
  refine ⟨fun _ => ⟨_, _, _, rfl⟩, decode_step5_eq_error_iff, fun c => ?_⟩
  cases c with
  | step5 w =>
    obtain hge | ⟨n, hn⟩ := step5_cases w
    · exact .inr ⟨w, rfl, hge⟩
    · exact .inl ⟨_, hn ▸ decode_step5Of n⟩
  | req24 | rsp8 | ctl3 => exact .inl ⟨_, rfl⟩

/-- Settles O52: a decoder's value on each fixed word, by evaluation. -/
theorem specWordsDecode : Obligations.SpecWordsDecode := by
  unfold Obligations.SpecWordsDecode
  decide

namespace Machine

/-! ## The invariants every step keeps (R18, R59) -/

/-- Coherence is about the registers, which the host's move leaves alone. -/
theorem State.Coherent.hostMove {s : State} (h : s.Coherent) : s.hostMove.Coherent := h

theorem State.coherent_doReset (s : State) : s.doReset.Coherent := ⟨fun _ => rfl, fun h => absurd rfl h⟩

/-- After ACCEPT no micro-operation is performed yet. -/
theorem State.coherent_doAccept (d0 d1 p : Byte) (s : State) : (s.doAccept d0 d1 p).Coherent :=
  ⟨fun h => absurd h (by decide : (1 : StepNo) ≠ 0), fun _ => rfl⟩

/-- The micro-operation STEP = k + 1 selects is the one the algorithm has after the first `k` (R32, R59 item 3). -/
theorem State.Coherent.doAdvance {s : State} (h : s.Coherent) (hrun : 1 ≤ s.step.val ∧ s.step.val ≤ 18) :
    s.doAdvance.Coherent := by
  obtain ⟨n, hn, hadv⟩ := State.doAdvance_of_running hrun
  obtain ⟨k, hk⟩ : ∃ k, s.step.val = k + 1 := ⟨s.step.val - 1, by omega⟩
  have hacc : s.acc = accAfter k s.d0 s.d1 s.poly := by
    have h := h.2 fun h0 => by simp [h0] at hrun
    rwa [hk, Nat.add_sub_cancel] at h
  have hsucc := accAfter_succ (show k ≤ 17 by omega) s.d0 s.d1 s.poly
  rw [hadv]
  refine ⟨fun (h0 : n = 0) => by simp [h0] at hn, fun _ => ?_⟩
  simp only [hn, hk, hsucc, hacc, Nat.reduceEqDiff, Nat.succ_sub_one]

/-- Settles O31: RESET and ACCEPT start the algorithm, ADVANCE performs its next micro-operation, HOLD keeps it. -/
theorem stepKeepsCoherence : Obligations.StepKeepsCoherence := by
  intro s t hs h
  obtain ⟨-, rfl⟩ | ⟨-, -, -, rfl⟩ | ⟨-, hrun, rfl⟩ | ⟨-, -, -, rfl⟩ := step_cases h
  · exact s.coherent_doReset.hostMove
  · exact (s.coherent_doAccept _ _ _).hostMove
  · exact (hs.doAdvance hrun).hostMove
  · exact hs.hostMove

/-- Settles O30: the reset state has STEP = 0 and ACC = FF. -/
theorem resetStateIsCoherent : Obligations.ResetStateIsCoherent :=
  ⟨fun _ => rfl, fun h => absurd rfl h⟩

/-- Settles O53: the registers and the host's move each keep the relation, and related states show the same outputs. -/
theorem stepKeepsIndistinguishability : Obligations.StepKeepsIndistinguishability := by
  intro s t u v h hu hv
  have huv : u.Indistinguishable v := by
    rw [step_eq] at hu hv
    cases hu
    cases hv
    exact h.afterTransition.hostMove
  exact ⟨huv, h.outputs_eq, huv.outputs_eq⟩

/-- Settles O27: STEP rises by the table's column in RUN; of the four things a step can do only RESET and ACCEPT let it
fall. -/
theorem stepCounterRisesByOne : Obligations.StepCounterRisesByOne := by
  refine fun s t h => ⟨fun hrst => ?_, fun hrst h1 h18 => ?_, fun hfall => ?_, Nat.le_of_lt_succ t.step.isLt⟩
  · cases (step_of_reset hrst).symm.trans h
    rfl
  · rw [step_val_of_no_reset hrst h, if_neg (by omega)]
  · obtain ⟨hrst, rfl⟩ | ⟨hrst, hready, hstart, rfl⟩ | ⟨-, hrun, rfl⟩ | ⟨-, -, -, rfl⟩ := step_cases h
    · exact .inl ⟨hrst, rfl⟩
    · exact .inr ⟨⟨hready, hrst, hstart⟩, rfl⟩
    · have hnext : s.doAdvance.hostMove.step.val = s.step.val + 1 := nextStep_val_of_running hrun
      omega
    · exact absurd hfall (Nat.lt_irrefl _)

/-! ## What an instruction writes (R20, R26, R68) -/

/-- The instructions that write D[0], D[1] and POLY: ACCEPT, a CRC8 that performs it, and RESET (R10, R20). -/
def WritesOperands (i : Instr) (s : State) : Prop :=
  i = .accept ∨ i = .reset ∨ (s.ready = true ∧ ∃ d0 d1 p, i = .crc8 d0 d1 p)

/-- D[0], D[1] and POLY hold in `t` what they hold in `s`. -/
def State.KeepsOperands (s t : State) : Prop := t.d0 = s.d0 ∧ t.d1 = s.d1 ∧ t.poly = s.poly

theorem State.keepsOperands_doAdvance (s : State) : s.KeepsOperands s.doAdvance :=
  ⟨s.doAdvance_d0, s.doAdvance_d1, s.doAdvance_poly⟩

/-- CRC8 on a ready engine is the whole transaction (R47). -/
theorem exec_crc8_of_ready {s : State} (h : s.ready = true) (d0 d1 p : Byte) :
    exec (.crc8 d0 d1 p) s = .next (s.doTransaction d0 d1 p) := if_pos h

/-- CRC8 on a busy engine is lost, and the step is an ordinary ADVANCE (R58). -/
theorem exec_crc8_of_not_ready {s : State} (h : s.ready = false) (d0 d1 p : Byte) :
    exec (.crc8 d0 d1 p) s = .next s.doAdvance := if_neg (Bool.eq_false_iff.1 h)

/-- What every instruction answers: a next state, with what the host drives left alone, and with the operands left alone
unless the instruction is one of those that write them. -/
theorem exec_frame (i : Instr) (s : State) : ∃ t, exec i s = .next t ∧ (t.ports = s.ports ∧ t.agenda = s.agenda) ∧
    (s.KeepsOperands t ∨ WritesOperands i s) := by
  cases i with
  | crc8 d0 d1 p =>
    cases hready : s.ready with
    | true =>
      refine ⟨_, exec_crc8_of_ready hready d0 d1 p, ?_, .inr (.inr (.inr ⟨hready, d0, d1, p, rfl⟩))⟩
      rw [State.doTransaction_eq]
      exact ⟨rfl, rfl⟩
    | false =>
      exact ⟨_, exec_crc8_of_not_ready hready d0 d1 p, ⟨s.doAdvance_ports, s.doAdvance_agenda⟩,
        .inl s.keepsOperands_doAdvance⟩
  | byte i => exact ⟨_, congrArg Host.Outcome.next (s.doByte_eq i), ⟨rfl, rfl⟩, .inl ⟨rfl, rfl, rfl⟩⟩
  | advance | ignore =>
    exact ⟨_, rfl, ⟨s.doAdvance_ports, s.doAdvance_agenda⟩, .inl s.keepsOperands_doAdvance⟩
  | accept => exact ⟨_, rfl, ⟨rfl, rfl⟩, .inr (.inl rfl)⟩
  | reset => exact ⟨_, rfl, ⟨rfl, rfl⟩, .inr (.inr (.inl rfl))⟩
  | rsp8 | idle | xorb0 | xorb1 | round | out | init | hold =>
    exact ⟨_, rfl, ⟨rfl, rfl⟩, .inl ⟨rfl, rfl, rfl⟩⟩

/-- Settles O25: the frame of exec, where a changed operand leaves the writing instructions only. -/
theorem operandsWrittenOnlyByAccept : Obligations.OperandsWrittenOnlyByAccept := by
  intro i s t h hchanged
  obtain ⟨u, hu, -, ⟨hd0, hd1, hpoly⟩ | hwrites⟩ := exec_frame i s
  · cases h.symm.trans hu
    simp [hd0, hd1, hpoly] at hchanged
  · exact hwrites

/-- Settles O26: the frame of exec. -/
theorem hostValuesAreLeftAlone : Obligations.HostValuesAreLeftAlone := by
  intro i s t h
  obtain ⟨u, hu, hhost, -⟩ := exec_frame i s
  cases h.symm.trans hu
  exact hhost

/-- Settles O29: exec answers a next state by its frame, and a step by its equation. -/
theorem nothingInTheEngineFails : Obligations.NothingInTheEngineFails :=
  ⟨fun i s => (exec_frame i s).imp fun _ h => h.1, fun s => ⟨_, step_eq s⟩⟩

/-- Settles O28: the operand buffer's reads, after an ACCEPT too; the two values by evaluation. -/
theorem operandBufferKeepsOrder : Obligations.OperandBufferKeepsOrder :=
  ⟨fun s => ⟨s.memRead_zero, s.memRead_one⟩, fun _ => ⟨_, rfl, State.memRead_zero _, State.memRead_one _⟩, by decide,
    by decide⟩

/-! ## CRC8 as one instruction and its expansion (R38, R47, R58) -/

/-- Settles O9: the state a whole transaction leaves, and the function without its mask. -/
theorem crc8RunsWholeTransaction : Obligations.Crc8RunsWholeTransaction := by
  refine ⟨fun d0 d1 p s hready => ?_, fun _ _ _ => rfl, crc8Fn_eq⟩
  rw [exec_crc8_of_ready hready, State.doTransaction_eq, crc8Fn_eq]

/-- Settles O10: a busy engine is not ready, and the ADVANCE of the lost request keeps the operands. -/
theorem crc8WhileBusyIsLost : Obligations.Crc8WhileBusyIsLost := by
  intro d0 d1 p s hbusy
  have hready : s.ready = false := State.not_ready_of_running (s.busy_iff.1 hbusy)
  exact ⟨_, exec_crc8_of_not_ready hready d0 d1 p, rfl, s.keepsOperands_doAdvance⟩

/-- A micro-operation as an instruction has its register transfer as meaning (R32). -/
theorem exec_toInstr (m : MicroOp) (s : State) : exec m.toInstr s = .next (s.doMicroOp m) := by
  cases m with
  | xorb i => fin_cases i <;> rfl
  | idle | round | out => rfl

theorem execAll_cons_of_next {i : Instr} {s t : State} (h : exec i s = .next t) (is : List Instr) :
    execAll (i :: is) s = execAll is t := by
  rw [execAll, h, andThen_next]

theorem execAll_rounds (i : ByteIndex) (ks : List (Fin 8)) (s : State) :
    execAll (ks.map fun k => .round i k) s = .next (times State.doRound ks.length s) := by
  induction ks generalizing s with
  | nil => rfl
  | cons k ks ih => exact (execAll_cons_of_next rfl _).trans (ih s.doRound)

theorem execAll_advances (n : Nat) (is : List Instr) (s : State) :
    execAll (List.replicate n .advance ++ is) s = execAll is (times State.doAdvance n s) := by
  induction n generalizing s with
  | zero => rfl
  | succ n ih => exact (execAll_cons_of_next rfl _).trans (ih s.doAdvance)

/-- XORB i and the eight ROUNDs one after another are BYTE i (R38, R46). -/
theorem execAll_byte_expansion (i : ByteIndex) (s : State) :
    execAll ((MicroOp.xorb i).toInstr :: roundsOf i) s = exec (.byte i) s := by
  rw [execAll_cons_of_next (exec_toInstr _ s), roundsOf, execAll_rounds, List.length_finRange]
  rfl

/-- Settles O11: the XORB and its rounds; ACCEPT and eighteen ADVANCEs are the transaction; and BYTE 0, BYTE 1 compute the
function, whose mask keeps the byte. -/
theorem pseudoOperationsAreTheirExpansions : Obligations.PseudoOperationsAreTheirExpansions := by
  refine ⟨fun i s => ?_, fun s hready => ?_, fun s hready => ?_⟩
  · have hxorb : (if i = 0 then .xorb0 else .xorb1) = (MicroOp.xorb i).toInstr := by
      fin_cases i <;> rfl
    rw [hxorb]
    exact execAll_byte_expansion i s
  · rw [execAll_cons_of_next (t := s.doAccept _ _ _) rfl, execAll_advances, exec_crc8_of_ready hready]
    rfl
  · refine ⟨_, _, exec_crc8_of_ready hready _ _ _, rfl, ?_⟩
    rw [State.doTransaction_eq, State.doByte_eq, State.doByte_eq, crc8Fn, and_outputMask]
    exact ⟨rfl, rfl, rfl, rfl⟩

/-! ## What a step fetches (R32, R34) -/

/-- The transition the control word selects makes the step's register writes. -/
theorem exec_transition (s : State) : exec s.transition s = .next (afterTransition s) := by
  rw [State.transition_eq, afterTransition]
  split_ifs <;> rfl

/-- Settles O19: the control word decodes to the transition, and a step adds the host's move. -/
theorem stepRunsFetchedTransition : Obligations.StepRunsFetchedTransition := by
  intro s i h
  obtain rfl : s.transition = i := Except.ok.inj h
  exact ⟨_, exec_transition s, step_eq s⟩

/-! ## The transaction as nineteen steps (R59, R61) -/

/-- Settles O33: the nineteen steps are the ACCEPT and eighteen ADVANCEs that CRC8 stands for. -/
theorem stepsOfTransactionAgreeWithCrc8 : Obligations.StepsOfTransactionAgreeWithCrc8 := fun _ hreq hnr =>
  ⟨_, exec_crc8_of_ready hreq.1 _ _ _, run_of_requesting hreq hnr (le_refl 18) (le_refl 18)⟩

/-- Settles O34: the registers after nineteen steps are functions of the three operands. -/
theorem resultDependsOnOperandsOnly : Obligations.ResultDependsOnOperandsOnly := by
  intro s t hs ht hsn htn h0 h1 hp
  have hacc : accAfter 18 s.ports.data0 s.ports.data1 s.ports.poly =
      accAfter 18 t.ports.data0 t.ports.data1 t.ports.poly := by rw [h0, h1, hp]
  refine ⟨_, _, run_of_requesting_fields hs hsn (le_refl 18) (le_refl 18),
    run_of_requesting_fields ht htn (le_refl 18) (le_refl 18), State.outputs_congr rfl fun _ => hacc.symm, ?_, hacc, h0,
    h1, hp, rfl⟩
  rw [State.response_of_done rfl, State.response_of_done rfl]
  exact congrArg some hacc

/-- Settles O36: STEP is k + 1 after k + 1 steps, in RUN up to 18 and in DONE at 19. -/
theorem doneAfterExactlyEighteenSteps : Obligations.DoneAfterExactlyEighteenSteps := by
  refine fun s hreq hnr => ⟨fun k hk => ⟨_, run_of_requesting_fields hreq hnr hk.le hk.le, ?_, ?_⟩,
    _, run_of_requesting_fields hreq hnr (le_refl 18) (le_refl 18), rfl, rfl⟩
  · exact (State.no_result_of_step_le (Nat.succ_le_of_lt hk)).1
  · exact (State.busy_iff _).2 ⟨Nat.le_add_left 1 k, Nat.succ_le_of_lt hk⟩

/-! ## A ready engine under a quiet host (R57) -/

/-- A host quiet for `n + 1` steps more is quiet for `n` after its next move. -/
theorem State.hostQuiet.hostMove {n : Nat} {s : State} (h : s.hostQuiet (n + 1)) : s.hostMove.hostQuiet n := by
  obtain ⟨-, hlater⟩ := h
  rw [State.hostQuiet, State.hostMove_ports, State.hostMove_agenda]
  cases hl : s.agenda with
  | nil => exact ⟨⟨rfl, rfl⟩, by simp⟩
  | cons q qs =>
    rw [hl, List.take_succ_cons] at hlater
    exact List.forall_mem_cons.1 hlater

/-- Settles O35: each step is a HOLD, and the host stays quiet for the rest. -/
theorem readyEngineStandsStill : Obligations.ReadyEngineStandsStill := by
  intro n
  induction n with
  | zero => exact fun s _ _ => ⟨s, rfl, rfl⟩
  | succ n ih =>
    intro s hready hquiet
    have ⟨⟨hrst, hstart⟩, _⟩ := hquiet
    obtain ⟨t, hrun, ht⟩ := ih s.hostMove hready hquiet.hostMove
    refine ⟨t, ?_, ht.trans ?_⟩
    · rwa [run_succ, afterTransition_of_waiting hrst hready hstart]
    · rw [State.hostMove_agenda, List.drop_tail]
      rfl

/-! ## The function's algebra (R53) -/

theorem crc8Fn_FF (d1 p : Byte) : crc8Fn 0xFF#8 d1 p = roundsFn 8 d1 p := by
  have h0 : roundsFn 8 0#8 p = 0#8 := roundsFn_of_zero 8 p
  rw [crc8Fn_eq, BitVec.xor_self, h0, BitVec.zero_xor]

/-- CRC8 as the XOR of what the initial value and each byte contribute. -/
theorem crc8Fn_decomposed (d0 d1 p : Byte) :
    crc8Fn d0 d1 p = roundsFn 8 (roundsFn 8 0xFF#8 p) p ^^^ roundsFn 8 (roundsFn 8 d0 p) p ^^^ roundsFn 8 d1 p := by
  rw [crc8Fn_eq, roundsFn_xor, roundsFn_xor, roundsFn_xor]

/-- CRC8 of 00, 00 is what the initial value alone contributes. -/
theorem crc8Fn_00_00 (p : Byte) : crc8Fn 0x00#8 0x00#8 p = roundsFn 8 (roundsFn 8 0xFF#8 p) p := by
  rw [crc8Fn_eq, BitVec.xor_zero, BitVec.xor_zero]

/-- Settles O40: everything follows from the linearity of the rounds. -/
theorem resultIsAffineInTheInput : Obligations.ResultIsAffineInTheInput := by
  refine ⟨roundsFn_xor 8, roundsFn_of_zero 8, roundsFn_xor 8, crc8Fn_decomposed, fun d0 d1 p => ?_, crc8Fn_FF,
    fun d0 d1 p => byteFn_self _ p⟩
  rw [crc8Fn_00_00, crc8Fn_decomposed]

/-- Under an odd polynomial no byte but 0 goes to 0, so by linearity no two bytes meet. -/
theorem roundFn_injective {p : Byte} (hp : p.getLsbD 0 = true) : Function.Injective (roundFn · p) := by
  intro a a' heq
  by_contra hne
  refine roundFn_ne_zero (a := a ^^^ a') hp (fun i hi => absurd hi (Nat.not_lt_zero i)) ?_ ?_
  · exact fun h => hne (BitVec.xor_eq_zero_iff.1 h)
  · exact (roundFn_xor a a' p).trans (BitVec.xor_eq_zero_iff.2 heq)

theorem roundsFn_injective {p : Byte} (hp : p.getLsbD 0 = true) (n : Nat) : Function.Injective (roundsFn n · p) := by
  induction n with
  | zero => exact Function.injective_id
  | succ n ih =>
    simp only [roundsFn_succ]
    exact (roundFn_injective hp).comp ih

/-- An even polynomial never reaches bit 0, which the shift clears. -/
theorem roundFn_even {p : Byte} (hp : p.getLsbD 0 = false) (a : Byte) : (roundFn a p).getLsbD 0 = false := by
  rw [roundFn_getLsbD, hp, BitVec.getLsbD_shiftLeft]
  simp

/-- Settles O41: the rounds and the XOR with the first byte's remainder are injective. -/
theorem oddPolynomialKeepsBytesApart : Obligations.OddPolynomialKeepsBytesApart := by
  refine ⟨fun p hp => ⟨fun a a' h => roundFn_injective hp h, fun d0 d1 d1' h => ?_⟩, fun p hp => roundFn_even hp⟩
  rw [crc8Fn_eq, crc8Fn_eq] at h
  exact (BitVec.xor_right_inj _).1 (roundsFn_injective hp 8 h)

/-! ## The boundary and the bank (R28, R63) -/

/-- Any length but 2 is the boundary's one error, with that length (R63). -/
theorem checked_of_wrong_length (data : List Byte) (p : Byte) (s : State) (h : data.length ≠ 2) :
    crc8Checked data p = .error (.invalidInputLength data.length) ∧
      callChecked data p s = .fault (.invalidInputLength data.length) :=
  match data, h with
  | [], _ => ⟨rfl, rfl⟩
  | [_], _ => ⟨rfl, rfl⟩
  | [_, _], h => absurd rfl h
  | _ :: _ :: _ :: _, _ => ⟨rfl, rfl⟩

/-- Settles O43: the wrong lengths by their shapes, the right one by computation. -/
theorem wrongLengthIsRejected : Obligations.WrongLengthIsRejected :=
  ⟨checked_of_wrong_length, fun _ _ _ _ => ⟨rfl, rfl⟩, fun _ => beq_iff_eq.trans List.length_eq_two⟩

/-- An engine's turn writes its own next state at its own place (R28). -/
theorem stepEngine_eq {n : Nat} {bank : List State} {s : State} (h : bank[n]? = some s) :
    stepEngine n bank = some (bank.set n (afterTransition s).hostMove) := by
  simp [stepEngine, h, step_eq]

/-- Settles O46: the bank after the turn differs at that one place. -/
theorem enginesShareNothing : Obligations.EnginesShareNothing := by
  intro n bank s h
  obtain ⟨hlt, -⟩ := List.getElem?_eq_some_iff.1 h
  exact ⟨_, _, stepEngine_eq h, step_eq s, List.getElem?_set_self hlt, List.length_set,
    fun _ hm => List.getElem?_set_ne hm.symm⟩

/-! ## A step under a host that asks for nothing, and the placed words (R32, R56; log entries 9 and 10) -/

/-- A step that is neither a RESET nor an ACCEPT is an ADVANCE, which on a ready engine changes nothing. -/
theorem afterTransition_of_unserved {s : State} (hrst : s.ports.rst = false)
    (hno : s.ready = true → s.ports.start = false) : afterTransition s = s.doAdvance := by
  cases hready : s.ready with
  | true => rw [afterTransition_of_waiting hrst hready (hno hready), State.doAdvance_of_ready hready]
  | false => exact afterTransition_of_running hrst (State.running_of_not_ready hready)

/-- In RUN no request is taken, whatever the host drives. -/
theorem State.unserved_of_running {s : State} (hrun : 1 ≤ s.step.val ∧ s.step.val ≤ 18) :
    s.ready = true → s.ports.start = false := fun hready =>
  absurd ((State.not_ready_of_running hrun).symm.trans hready) (by decide)

/-- Without a RESET or an ACCEPT a step executes the micro-operation of STEP and moves STEP on. -/
theorem step_of_unserved {s : State} (hrst : s.ports.rst = false) (hno : s.ready = true → s.ports.start = false) :
    step s = .next ((s.doMicroOp (microProgram s.step)).setStep (nextStep s.step)).hostMove := by
  rw [step_eq, afterTransition_of_unserved hrst hno]
  rfl

/-- Settles O20: the STEP word decodes to the micro-operation that the step executes, and in RUN STEP rises. -/
theorem stepRunsFetchedMicroOperation : Obligations.StepRunsFetchedMicroOperation := by
  intro s i h1 h18 hrst h
  obtain rfl : (microProgram s.step).toInstr = i := Except.ok.inj ((decode_step5Of s.step).symm.trans h)
  exact ⟨_, _, exec_toInstr _ s, nextStep_val_of_running ⟨h1, h18⟩,
    step_of_unserved hrst (State.unserved_of_running ⟨h1, h18⟩)⟩

theorem tableCode_req24 (w : BitVec 24) : tableCode 24 w.toNat = some (.req24 w) := by
  rw [tableCode, if_pos w.isLt, ofNat_toNat_self]

theorem tableCode_step5 (n : StepNo) : tableCode 8 n.val = some (step5Of n.val) :=
  if_pos (by omega)

theorem tableCode_rsp8 {w : BitVec 8} (h : 32 ≤ w.toNat) : tableCode 8 w.toNat = some (.rsp8 w) := by
  rw [tableCode, if_neg (Nat.not_lt.2 h), if_pos w.isLt, ofNat_toNat_self]

theorem tableCode_ctl3 (w : BitVec 3) : tableCode 3 w.toNat = some (.ctl3 w) := by
  rw [tableCode, if_pos w.isLt, ofNat_toNat_self]

theorem decodeTableWord_of_tableCode {nbits w : Nat} {c : Code} {i : Instr} (hc : tableCode nbits w = some c)
    (hi : decode c = .ok i) : decodeTableWord nbits w = some i := by
  simp [decodeTableWord, hc, hi]

theorem State.withFetchWord_of_tableCode {nbits w : Nat} {c : Code} (hc : tableCode nbits w = some c) (s : State) :
    s.withFetchWord nbits w = s.place c := by
  rw [State.withFetchWord, hc]

/-- A placed request finds the engine ready, in place or in IDLE. -/
theorem State.requesting_place_req24 (w : BitVec 24) (s : State) : (s.place (.req24 w)).requesting := by
  have hstep : (s.place (.req24 w)).step = if s.ready then s.step else 0 := rfl
  refine ⟨(State.ready_iff _).2 ?_, rfl, rfl⟩
  rw [hstep]
  split
  next hready => exact s.ready_iff.1 hready
  next => exact .inl rfl

theorem State.place_step5Of (n : StepNo) (s : State) :
    s.place (step5Of n.val) = { s with ports := Ports.quiet, step := n } := by
  have hval : (BitVec.ofNat 5 n.val).toNat = n.val := Nat.mod_eq_of_lt (by omega)
  simp [State.place, step5Of, hval]

/-- `ready` is a function of STEP alone (R16). -/
theorem State.ready_congr {s t : State} (h : t.step = s.step) : t.ready = s.ready := by
  rw [State.ready, h]; rfl

/-- A control word is placed with the `ready` it names. -/
theorem State.ready_place_ctl3 (w : BitVec 3) (s : State) : (s.place (.ctl3 w)).ready = w.getLsbD 0 := by
  have hstep : (s.place (.ctl3 w)).step = if w.getLsbD 0 == s.ready then s.step else if w.getLsbD 0 then 0 else 1 := rfl
  split_ifs at hstep with hsame hw
  · exact (State.ready_congr hstep).trans (eq_of_beq hsame).symm
  · rw [hw]
    exact (State.ready_iff _).2 (.inl (congrArg Fin.val hstep))
  · rw [Bool.eq_false_iff.2 hw]
    exact State.not_ready_of_running (by rw [hstep]; decide)

theorem ctl3_bits (w : BitVec 3) :
    BitVec.ofBool (w.getLsbD 2) ++ BitVec.ofBool (w.getLsbD 1) ++ BitVec.ofBool (w.getLsbD 0) = w := by
  revert w; decide

theorem State.controlWord_place_ctl3 (w : BitVec 3) (s : State) : (s.place (.ctl3 w)).controlWord = w := by
  rw [State.controlWord, State.ready_place_ctl3]
  exact ctl3_bits w

/-- Settles O21: the format of the word, the state that it is placed in, and the step from there. -/
theorem placedTableWordRunsNext : Obligations.PlacedTableWordRunsNext := by
  refine ⟨fun s w => ?_, fun s n => ?_, fun s w => ?_, fun s w hw => ?_⟩
  · rw [State.withFetchWord_of_tableCode (tableCode_req24 w)]
    exact ⟨State.requesting_place_req24 w s, req24_fields w⟩
  · rw [State.withFetchWord_of_tableCode (tableCode_step5 n), State.place_step5Of]
    exact ⟨_, _, decodeTableWord_of_tableCode (tableCode_step5 n) (decode_step5Of n), exec_toInstr _ _, rfl,
      step_of_unserved rfl fun _ => rfl⟩
  · rw [State.withFetchWord_of_tableCode (tableCode_ctl3 w), State.transition, State.controlWord_place_ctl3]
    exact decodeTableWord_of_tableCode (tableCode_ctl3 w) rfl
  · rw [State.withFetchWord_of_tableCode (tableCode_rsp8 hw)]
    exact ⟨decodeTableWord_of_tableCode (tableCode_rsp8 hw) rfl, State.response_of_done rfl⟩

/-! ## Clock cycles (R60) -/

/-- ADVANCEs neither read nor write what the host drives. -/
theorem State.times_doAdvance_host (n : Nat) (s : State) (q : Ports) (l : List Ports) :
    times State.doAdvance n { s with ports := q, agenda := l } =
      { times State.doAdvance n s with ports := q, agenda := l } :=
  (times_semiconj (h := fun t : State => { t with ports := q, agenda := l })
    (fun t => (State.doAdvance_host t q l).symm) n s).symm

theorem State.times_doAdvance_agenda (n : Nat) (s : State) : (times State.doAdvance n s).agenda = s.agenda :=
  times_invariant (P := fun t : State => t.agenda = s.agenda) (fun t h => (State.doAdvance_agenda t).trans h) n rfl

theorem State.times_doAdvance_of_ready {s : State} (h : s.ready = true) (n : Nat) : times State.doAdvance n s = s :=
  times_invariant (P := (· = s)) (fun _ hx => by rw [hx, State.doAdvance_of_ready h]) n rfl

/-- Stopping early changes nothing, for an ADVANCE of a ready engine changes nothing (log entry 13). -/
theorem State.advances_eq (n : Nat) (s : State) : s.advances n = times State.doAdvance n s := by
  induction n generalizing s with
  | zero => rfl
  | succ n ih =>
    rw [State.advances]
    split
    next => exact ih s.doAdvance
    next hbusy =>
      have hready : s.ready = true := by rw [State.ready_eq_not_busy, Bool.eq_false_iff.2 hbusy]; rfl
      exact (State.times_doAdvance_of_ready hready (n + 1)).symm

theorem State.clockCycle_of_reset {s : State} (h : s.ports.rst = true) (u : Nat) :
    s.clockCycle u = s.doReset.hostMove := by
  simp [State.clockCycle, h]

theorem State.clockCycle_of_requesting {s : State} (h : s.requesting) (u : Nat) :
    s.clockCycle u = (s.doAccept s.ports.data0 s.ports.data1 s.ports.poly).hostMove := by
  obtain ⟨hready, hrst, hstart⟩ := h
  simp [State.clockCycle, hready, hrst, hstart]

theorem State.clockCycle_of_unserved {s : State} (hrst : s.ports.rst = false)
    (hno : s.ready = true → s.ports.start = false) (u : Nat) :
    s.clockCycle u = (times State.doAdvance u s).hostMove := by
  have hnot : (s.ports.start && s.ready) = false := by
    cases hready : s.ready with
    | true => rw [hno hready]; rfl
    | false => exact Bool.and_false _
  simp [State.clockCycle, hrst, hnot, State.advances_eq]

/-- A cycle in RUN under any host that does not reset. -/
theorem State.clockCycle_of_running_driven {s : State} (hrun : 1 ≤ s.step.val ∧ s.step.val ≤ 18) {q : Ports}
    (hq : q.rst = false) (l : List Ports) (u : Nat) :
    ({ s with ports := q, agenda := l } : State).clockCycle u =
      { times State.doAdvance u s with ports := l.headD Ports.quiet, agenda := l.tail } := by
  rw [State.clockCycle_of_unserved (s := { s with ports := q, agenda := l }) hq (State.unserved_of_running hrun),
    State.times_doAdvance_host]
  rfl

/-- The host's later moves have no part in such a step. -/
theorem afterTransition_of_unserved_agenda {s : State} (hrst : s.ports.rst = false)
    (hno : s.ready = true → s.ports.start = false) (l : List Ports) :
    afterTransition { s with agenda := l } = { s.doAdvance with ports := s.ports, agenda := l } :=
  (afterTransition_of_unserved (s := { s with agenda := l }) hrst hno).trans (s.doAdvance_host s.ports l)

/-- A run that begins with neither a RESET nor an ACCEPT, and in which the host does nothing after its first step, is that
many ADVANCEs. -/
theorem run_of_unserved {s : State} (hrst : s.ports.rst = false) (hno : s.ready = true → s.ports.start = false)
    (n : Nat) (l : List Ports) :
    run (n + 1) { s with agenda := List.replicate n Ports.quiet ++ l } =
      .next { times State.doAdvance (n + 1) s with ports := l.headD Ports.quiet, agenda := l.tail } := by
  induction n generalizing s with
  | zero => rw [run_succ, afterTransition_of_unserved_agenda hrst hno]; rfl
  | succ n ih =>
    have hrest := ih (s := { s.doAdvance with ports := Ports.quiet }) rfl fun _ => rfl
    rw [State.times_doAdvance_host] at hrest
    rw [run_succ, afterTransition_of_unserved_agenda hrst hno]
    exact hrest

/-- Settles O44: a RESET or an ACCEPT is one step, and any other cycle is the `u` steps that its ADVANCEs make. -/
theorem unrolledCycleIsRunOfSteps : Obligations.UnrolledCycleIsRunOfSteps := by
  refine ⟨Nat.le_add_left 1 _, fun u s hu => ?_⟩
  cases hrst : s.ports.rst with
  | true =>
    refine ⟨1, le_refl 1, hu, (?_ : run 1 s = _)⟩
    rw [State.clockCycle_of_reset hrst, run_succ, afterTransition_of_reset hrst]
    rfl
  | false =>
    by_cases hno : s.ready = true → s.ports.start = false
    · obtain ⟨n, rfl⟩ : ∃ n, u = n + 1 := ⟨u - 1, by omega⟩
      refine ⟨n + 1, hu, le_refl _, ?_⟩
      rw [State.clockCycle_of_unserved hrst hno, Nat.add_sub_cancel, run_of_unserved hrst hno, State.hostMove,
        State.times_doAdvance_agenda]
    · obtain ⟨hready, hstart⟩ := Classical.not_imp.1 hno
      have hreq : s.requesting := ⟨hready, hrst, Bool.eq_true_of_not_eq_false hstart⟩
      refine ⟨1, le_refl 1, hu, (?_ : run 1 s = _)⟩
      rw [State.clockCycle_of_requesting hreq, run_succ, afterTransition_of_requesting hreq]
      rfl

/-- From a request, the cycle of the ACCEPT and `j` more are `u * j` ADVANCEs, as long as the transaction is in RUN before
each of them. -/
theorem times_clockCycle_of_requesting {s : State} (hreq : s.requesting) {n : Nat} (hnr : s.noReset n) {u j : Nat}
    (hj : j ≤ n) (hrun : ∀ i < j, u * i < 18) :
    times (State.clockCycle u) (j + 1) s =
      { times State.doAdvance (u * j) (s.doAccept s.ports.data0 s.ports.data1 s.ports.poly) with
        ports := (s.agenda.drop j).headD Ports.quiet
        agenda := s.agenda.drop (j + 1) } := by
  induction j with
  | zero => rw [times_succ, State.clockCycle_of_requesting hreq, List.drop_zero, List.drop_one]; rfl
  | succ j ih =>
    rw [times_succ_outer, ih (by omega) fun i hi => hrun i (by omega),
      State.clockCycle_of_running_driven (State.running_of_doAccept _ _ _ s (hrun j (Nat.lt_succ_self j)))
        (hnr.rst_drop hj), Nat.mul_succ, times_add, List.tail_drop]

/-- ADVANCEs past the eighteenth leave the finished transaction as it is. -/
theorem State.times_doAdvance_doAccept_of_le (d0 d1 p : Byte) (s : State) {m : Nat} (hm : 18 ≤ m) :
    times State.doAdvance m (s.doAccept d0 d1 p) = s.doTransaction d0 d1 p := by
  obtain ⟨k, rfl⟩ := Nat.exists_eq_add_of_le hm
  have hready : (s.doTransaction d0 d1 p).ready = true := by rw [State.doTransaction_eq]; rfl
  rw [times_add]
  exact State.times_doAdvance_of_ready hready k

/-- Settles O45: the number of cycles is the least `c` with `u * c` at least 18. -/
theorem cyclesPerTransaction : Obligations.CyclesPerTransaction := by
  intro u s hu hreq hnr
  have hceil : ∀ c, (18 + u - 1) / u ≤ c ↔ 18 ≤ u * c := fun c => ceilDiv_le_iff_le_mul (b := 18) hu
  have hrun : ∀ i < (18 + u - 1) / u, u * i < 18 := fun i hi => Nat.lt_of_not_le ((hceil i).not.1 (Nat.not_le.2 hi))
  refine ⟨fun j hj => ?_, ?_⟩
  · rw [times_clockCycle_of_requesting hreq hnr hj.le fun i hi => hrun i (hi.trans hj)]
    exact (State.busy_iff _).2 (State.running_of_doAccept _ _ _ s (hrun j hj))
  · rw [times_clockCycle_of_requesting hreq hnr (le_refl _) hrun,
      State.times_doAdvance_doAccept_of_le _ _ _ s ((hceil _).1 (le_refl _)), State.doTransaction_eq]
    exact ⟨rfl, State.crc_of_done rfl⟩

end Machine

end Sys2Proof
